-- ==== Sys2Proof/Word.lean ====
section
/-! DEFINITION. The word types of the block: every field of a frame is one byte (20_memory.md R74), and the
narrow registers are bit vectors of the widths of 10_state.md R30. -/

namespace Sys2Proof

/-- A byte, "an 8-bit unsigned value" (00_scope.md R13). -/
abbrev Byte := BitVec 8

/-- The receive state register's word, 3 bits (10_state.md R33). -/
abbrev RxsCode := BitVec 3

/-- A fault code's word, 4 bits (30_encoding.md R98; register LERR, 10_state.md R42). -/
abbrev Code4 := BitVec 4

end Sys2Proof
end

