-- ==== Sys2Proof/Config.lean ====
section
/-! DEFINITION. The configuration of an instance (10_state.md R31; parameters 00_scope.md R4 to R9), as plain data
that State holds: it is chosen at construction and no operation writes it. -/

namespace Sys2Proof

/-- Which integrity function the Checksum Port is connected to (00_scope.md R7).
`xorAll` is the reference instance P_CHK_XOR; `hook n` is an externally supplied function, one for each `n`,
of which the model knows nothing (`Config.checksumHook`). DESIGN CHOICE, safe: notes/assumptions/2.md. -/
inductive ChecksumPort where
  | xorAll
  | hook (n : Nat)
  deriving DecidableEq, Repr

/-- P_KIND_OK (00_scope.md R8) as plain data: accept every kind, or exactly the listed ones. Every predicate on
bytes is of the second form. DESIGN CHOICE, safe: notes/assumptions/3.md. -/
inductive KindPredicate where
  | acceptAll
  | acceptOnly (kinds : List Byte)
  deriving DecidableEq, Repr

/-- The six parameters. `pMax` is a natural number with `0 <= P_MAX <= 255` (00_scope.md R6), so that a larger
bound is no configuration at all (92_eei_decisions.md D3). -/
structure Config where
  pStart   : Byte
  pStop    : Byte
  pMax     : Fin 256
  pChk     : ChecksumPort
  pKindOk  : KindPredicate
  pTimeout : Nat
  deriving DecidableEq, Repr

namespace Config

/-- The integer that the `n`-th external checksum function returns for a byte sequence: "the core treats it as
opaque" (00_scope.md R7; 93_implementation_defined.md section 1, "a model assumes no property of it"). It has no
body, so every claim holds whatever the function is. Free value: notes/assumptions/2.md. -/
opaque checksumHook : Nat → List Byte → Int

/-- The defaults of 00_scope.md R4, R5, R6, R8, R9 with the reference checksum of R7: the configuration of every
test vector of 95_test_vectors.md. notes/assumptions/1.md. -/
def reference : Config where
  pStart   := 0xAA#8
  pStop    := 0xBC#8
  pMax     := 25
  pChk     := .xorAll
  pKindOk  := .acceptAll
  pTimeout := 0

/-- The host's kind constants (00_scope.md R10); the block never reads their meaning. -/
def kAck : Byte := 0x00#8
def kPublish : Byte := 0x01#8
def kSubscribe : Byte := 0x02#8

end Config

end Sys2Proof
end

