-- ==== Sys2Proof/Machine/State.lean ====
section
/-! DEFINITION. The state of one instance (10_state.md R30), the events (R51), the results (30_encoding.md R97,
R99), construction (70_reset_and_hazards.md R250) and the machine's state around it: the command stream that is
still to be performed and the results already returned. -/

namespace Sys2Proof.Machine

/-- The six receive states (30_encoding.md R96). -/
inductive RxState where
  | waitStart | getKind | getLength | getPayload | getChecksum | getStop
  deriving DecidableEq, Repr

/-- The document's fault taxonomy (30_encoding.md R98; 60_exceptions.md R210). These are ordinary outcomes of the
block, not faults of the model (R224). -/
inductive FaultKind where
  | invalidStart | unrecognizedKind | payloadTooLarge | checksumMismatch | invalidStop
  | malformedState | transmitBusy | receiveBusy | timeout
  deriving DecidableEq, Repr

/-- The source tag of a Fault event (30_encoding.md R98): the receive path, the transmit path or the timer. -/
inductive FaultSource where
  | rx | tx | tmr
  deriving DecidableEq, Repr

/-- An event of the trace (10_state.md R51). -/
inductive Event where
  | fault (code : FaultKind) (src : FaultSource)
  | frameReady (kind len : Byte) (payload : List Byte)
  | send (bytes : List Byte)
  deriving DecidableEq, Repr

/-- "exactly one of three outcomes" of a FEED_BYTE (30_encoding.md R97). -/
inductive RxOutcome where
  | incomplete
  | frameReady
  | fault (code : FaultKind)
  deriving DecidableEq, Repr

/-- What an operation returns to the agent that issued it (30_encoding.md R97, R99). -/
inductive Ret where
  /-- Ok of ENCODE, CONSUME, TX_COMPLETE, REINIT, TICK, NOP. -/
  | ok
  /-- NotReady of READ_FRAME and CONSUME. -/
  | notReady
  /-- Fault(code) of ENCODE. -/
  | fault (code : FaultKind)
  /-- The outcome of FEED_BYTE. -/
  | rx (outcome : RxOutcome)
  /-- Ok(k, l, p) of READ_FRAME. -/
  | frame (kind len : Byte) (payload : List Byte)
  /-- FEED_BUF's pair: an outcome and the number of bytes consumed. -/
  | bulk (outcome : RxOutcome) (consumed : Nat)
  deriving DecidableEq, Repr

/-- "The state of one instance is exactly: the configuration of rule R31, the registers and buffers of the table
below, and the event trace of rule R51" (10_state.md R30). A byte array is a list; its fixed length is kept by
every operation (`Memory.wf`; notes/assumptions/11.md). -/
structure Block where
  /-- The configuration (10_state.md R31). -/
  cfg   : Config
  /-- RXS, the receive state (R33). -/
  rxs   : RxsCode
  /-- CUR, the cursor (R34). -/
  cur   : Byte
  /-- PK, the partial frame's kind (R35). -/
  pk    : Byte
  /-- PL, the partial frame's length (R35). -/
  pl    : Byte
  /-- PBUF, the partial frame's payload, P_MAX bytes (R35, R36). -/
  pbuf  : List Byte
  /-- CCHK, the claimed checksum (R35). -/
  cchk  : Byte
  /-- PRDY, payload ready (R38). -/
  prdy  : Bool
  /-- DK, the delivered frame's kind (R43). -/
  dk    : Byte
  /-- DL, the delivered frame's length (R43). -/
  dl    : Byte
  /-- DBUF, the delivered frame's payload, P_MAX bytes (R43). -/
  dbuf  : List Byte
  /-- LERR, the code of the most recent fault (R42). -/
  lerr  : Code4
  /-- TXB, transmit busy (R39). -/
  txb   : Bool
  /-- TXBUF, the retained transmit frame, P_MAX + 5 bytes (R44; layout 20_memory.md R71). -/
  txbuf : List Byte
  /-- TXLEN, the retained frame's byte count, 9 bits (R44; 00_scope.md R11). -/
  txlen : BitVec 9
  /-- TXCHK, the retained frame's checksum (R44). -/
  txchk : Byte
  /-- IDLE, the inactivity count (R37; 60_exceptions.md R231). -/
  idle  : Nat
  /-- The event trace, oldest event first (R51). -/
  trace : List Event
  deriving DecidableEq, Repr

/-- The machine: one instance, the command stream that is still to be performed (30_encoding.md R100;
notes/assumptions/4.md) and the results returned so far, oldest first (notes/assumptions/8.md). The last two are
the model's own fields: they are the agents' side of the block, not registers of it. -/
structure State where
  block : Block
  cmds  : List Byte
  rets  : List Ret
  deriving DecidableEq, Repr

/-- Why the machine would stop with a fault: never. "Faults are outcomes, not stops" (60_exceptions.md R224), and no
rule of the spec stops the block, so the type has no constructor. -/
inductive Fault where
  deriving DecidableEq, Repr

/-- Why a step has no meaning. -/
inductive Refusal where
  /-- Raised by an arm of `exec` for an instruction that has no meaning yet. Safe. No arm raises it. -/
  | notModelled (mnemonic : String)
  /-- Raised by `exec` on a reserved opcode: "A command decoder refuses them: the command stream is ill-formed from
  that byte on and no step is taken for it" (30_encoding.md R101). Safe. -/
  | reservedOpcode (opcode : Byte)
  /-- Raised by `step` when the stream ends inside the command that this opcode byte begins. Safe:
  notes/assumptions/5.md. -/
  | truncatedCommand (opcode : Byte)
  deriving DecidableEq, Repr

/-- Construction: "takes the whole configuration ... and sets every register to its reset value (10_state.md rule
R49), with the event trace empty" (70_reset_and_hazards.md R250). -/
def Block.construct (c : Config) : Block where
  cfg   := c
  rxs   := 0#3
  cur   := 0#8
  pk    := 0#8
  pl    := 0#8
  pbuf  := List.replicate c.pMax.val 0#8
  cchk  := 0#8
  prdy  := false
  dk    := 0#8
  dl    := 0#8
  dbuf  := List.replicate c.pMax.val 0#8
  lerr  := 0#4
  txb   := false
  txbuf := List.replicate (c.pMax.val + 5) 0#8
  txlen := 0#9
  txchk := 0#8
  idle  := 0
  trace := []

/-- The machine around a newly constructed instance: nothing to perform, nothing returned. -/
def State.construct (c : Config) : State where
  block := Block.construct c
  cmds  := []
  rets  := []

/-- The machine right after reset, with the spec's default configuration (notes/assumptions/1.md). -/
def State.reset : State :=
  State.construct Config.reference

end Sys2Proof.Machine
end

