-- ==== Sys2Proof/Machine/Codes.lean ====
section
/-! DEFINITION. The numbers of 30_encoding.md: receive states (R96), outcomes (R97), fault codes and fault sources
(R98), results of ENCODE (R99). -/

namespace Sys2Proof.Machine

/-- The 3-bit encoding of a receive state (30_encoding.md R96). -/
def RxState.code : RxState → RxsCode
  | .waitStart => 0#3
  | .getKind => 1#3
  | .getLength => 2#3
  | .getPayload => 3#3
  | .getChecksum => 4#3
  | .getStop => 5#3

/-- The receive state that a value of RXS encodes; 6 and 7 are illegal (30_encoding.md R96). -/
def RxState.ofCode (c : RxsCode) : Option RxState :=
  match c.toNat with
  | 0 => some .waitStart
  | 1 => some .getKind
  | 2 => some .getLength
  | 3 => some .getPayload
  | 4 => some .getChecksum
  | 5 => some .getStop
  | _ => none

/-- The 4-bit code of a fault (30_encoding.md R98); 0 is None. -/
def FaultKind.code : FaultKind → Code4
  | .invalidStart => 1#4
  | .unrecognizedKind => 2#4
  | .payloadTooLarge => 3#4
  | .checksumMismatch => 4#4
  | .invalidStop => 5#4
  | .malformedState => 6#4
  | .transmitBusy => 7#4
  | .receiveBusy => 8#4
  | .timeout => 9#4

/-- The encoding of a Fault event's source field (30_encoding.md R98). -/
def FaultSource.code : FaultSource → BitVec 2
  | .rx => 0#2
  | .tx => 1#2
  | .tmr => 2#2

/-- The encoding of an outcome on port `rx_outcome` (30_encoding.md R97). -/
def RxOutcome.code : RxOutcome → BitVec 2
  | .incomplete => 0b00#2
  | .frameReady => 0b01#2
  | .fault _ => 0b10#2

/-- The value of port `rx_fault` for an outcome (30_encoding.md R97). -/
def RxOutcome.faultCode : RxOutcome → Code4
  | .incomplete => 0#4
  | .frameReady => 0#4
  | .fault k => k.code

/-- Port `tx_result`: Ok is 0b00, Fault is 0b10 (30_encoding.md R99). -/
def Ret.txResult : Ret → BitVec 2
  | .fault _ => 0b10#2
  | _ => 0b00#2

/-- Port `tx_fault`: the code of ENCODE's fault, or 0 (30_encoding.md R99). -/
def Ret.txFault : Ret → Code4
  | .fault k => k.code
  | _ => 0#4

end Sys2Proof.Machine
end

