-- ==== Sys2Proof/Machine/Ops.lean ====
section
/-! DEFINITION. The named operations that the meanings share: the Checksum Port, the kind predicate, writing a byte
array, the Error Manager action (the block's one exception entry; there is no return from it, 60_exceptions.md R229),
emitting an event, and returning a result. -/

namespace Sys2Proof.Machine

/-! ### The configuration's functions -/

/-- P_CHK_XOR (00_scope.md R7): the exclusive or of all bytes, 0x00 for the empty sequence. -/
def xorBytes : List Byte → Byte
  | [] => 0#8
  | b :: bs => b ^^^ xorBytes bs

/-- `chk(s)`: bits [7:0] of the Checksum Port's integer (00_scope.md R7, R15). -/
def chk (c : Config) (s : List Byte) : Byte :=
  match c.pChk with
  | .xorAll => xorBytes s
  | .hook n => BitVec.ofInt 8 (Config.checksumHook n s)

/-- `P_KIND_OK(k)` (00_scope.md R8). -/
def kindOk (c : Config) (k : Byte) : Bool :=
  match c.pKindOk with
  | .acceptAll => true
  | .acceptOnly kinds => kinds.contains k

/-! ### The byte arrays -/

/-- `for i: BUF[start + i] <- bytes[i]`: no byte lands outside the array (20_memory.md R70, 10_state.md R36). -/
def bufWrite (buf : List Byte) (start : Nat) : List Byte → List Byte
  | [] => buf
  | b :: bs => bufWrite (buf.set start b) (start + 1) bs

/-- `BUF[0..n)` (00_scope.md R14). -/
def bufRead (buf : List Byte) (n : Nat) : List Byte :=
  buf.take n

/-- Every byte array has its fixed length: P_MAX, P_MAX and P_MAX + 5 bytes (10_state.md R30). This is the canonical
form of the block's memory: equal contents are equal lists. -/
def Memory.wf (b : Block) : Bool :=
  decide (b.pbuf.length = b.cfg.pMax.val) && decide (b.dbuf.length = b.cfg.pMax.val) &&
    decide (b.txbuf.length = b.cfg.pMax.val + 5)

/-! ### Events, the Error Manager and results -/

/-- `emit E`: append to the trace (00_scope.md R15, 10_state.md R51). -/
def emit (e : Event) (b : Block) : Block :=
  { b with trace := b.trace ++ [e] }

/-- `IDLE <- 0`: "any byte is activity" (41_receive.md R150). -/
def clearIdle (b : Block) : Block :=
  { b with idle := 0 }

/-- `state <- S` (00_scope.md R15). -/
def goto (st : RxState) (b : Block) : Block :=
  { b with rxs := st.code }

/-- `raise Fault(code, src)`, the Error Manager action (60_exceptions.md R221): emit the event, record the code,
return the receiver to WaitStart, zero IDLE, and change nothing else. -/
def raiseFault (code : FaultKind) (src : FaultSource) (b : Block) : Block :=
  { emit (.fault code src) b with lerr := code.code, rxs := RxState.waitStart.code, idle := 0 }

/-- A FEED_BYTE that raises a fault: the action, then `return Fault(code)`. -/
def rxFault (code : FaultKind) (b : Block) : Block × RxOutcome :=
  (raiseFault code .rx b, .fault code)

/-- `return X`: the step's new block state, and its result to the agent (00_scope.md R15). -/
def answer (r : Block × Ret) (s : State) : Host.Outcome State Fault Refusal :=
  .next { s with block := r.1, rets := s.rets ++ [r.2] }

/-- `return` of FEED_BYTE's outcome. -/
def answerRx (r : Block × RxOutcome) (s : State) : Host.Outcome State Fault Refusal :=
  answer (r.1, .rx r.2) s

/-- `hold`: "the operation is not enabled in this state: it does not take a step, and its agent waits"
(00_scope.md R15). Nothing is written, emitted or returned. -/
def hold (s : State) : Host.Outcome State Fault Refusal :=
  .next s

end Sys2Proof.Machine
end

