-- ==== Sys2Proof/Machine/Flags.lean ====
section
/-! DEFINITION. The block's two flags, PRDY (10_state.md R38) and TXB (R39), and the check WF that FEED_BYTE makes
before its transition (41_receive.md R150). There are no condition codes (10_state.md R41). -/

namespace Sys2Proof.Machine

/-- The FrameReady latch: "DK, DL and DBUF ... are written only at the FrameReady transition, all together, from PK,
PL and PBUF[0..PL)" (10_state.md R43), with PRDY <- 1 (R38; 41_receive.md R156). -/
def latchFrame (b : Block) : Block :=
  { b with dk := b.pk, dl := b.pl, dbuf := bufWrite b.dbuf 0 (bufRead b.pbuf b.pl.toNat), prdy := true }

/-- PRDY <- 0 (42_host_ops.md R191). -/
def clearReady (b : Block) : Block :=
  { b with prdy := false }

/-- TXB <- 1 (40_encode.md R130). -/
def setBusy (b : Block) : Block :=
  { b with txb := true }

/-- TXB <- 0 (40_encode.md R135). -/
def clearBusy (b : Block) : Block :=
  { b with txb := false }

/-- WF (41_receive.md R150): `RXS <= 5`; PL <= P_MAX in GetPayload, GetChecksum and GetStop; CUR < PL in GetPayload. -/
def receiverWf (b : Block) : Bool :=
  match RxState.ofCode b.rxs with
  | none => false
  | some .waitStart => true
  | some .getKind => true
  | some .getLength => true
  | some .getPayload => decide (b.pl.toNat ≤ b.cfg.pMax.val) && decide (b.cur.toNat < b.pl.toNat)
  | some .getChecksum => decide (b.pl.toNat ≤ b.cfg.pMax.val)
  | some .getStop => decide (b.pl.toNat ≤ b.cfg.pMax.val)

end Sys2Proof.Machine
end

