-- ==== Sys2Proof/Machine/Operands.lean ====
section
/-! DEFINITION. The operand forms: ENCODE's payload operand (40_encode.md R130), the checksum input (30_encoding.md
R94), and the frame on the wire (R90). -/

namespace Sys2Proof.Machine

/-- `p[0..L)`: the first L bytes of the payload operand. A command carries them whenever L <= P_MAX; an operand byte
that an ill-formed term does not carry reads as 0 (notes/assumptions/12.md). -/
def payloadOperand (len : Byte) (p : List Byte) : List Byte :=
  (List.range len.toNat).map fun i => p.getD i 0#8

/-- `[kind, length] ++ payload`: "kind first, then the length byte, then the payload in order" (30_encoding.md R94). -/
def checksumInput (kind len : Byte) (payload : List Byte) : List Byte :=
  kind :: len :: payload

/-- The frame of 30_encoding.md R90: start sentinel, kind, length, payload, checksum, stop sentinel. -/
def frameBytes (c : Config) (kind len : Byte) (payload : List Byte) (checksum : Byte) : List Byte :=
  c.pStart :: kind :: len :: (payload ++ [checksum, c.pStop])

/-- The frame of a kind and a payload under the configured Checksum Port (30_encoding.md R90, R94). -/
def frameOf (c : Config) (kind len : Byte) (payload : List Byte) : List Byte :=
  frameBytes c kind len payload (chk c (checksumInput kind len payload))

end Sys2Proof.Machine
end

