-- ==== Sys2Proof/Machine/Encode.lean ====
section
/-! DEFINITION. The transmit path: ENCODE (40_encode.md R130, R131, R132) and TX_COMPLETE (R135). -/

namespace Sys2Proof.Machine

/-- The writes of a successful ENCODE: TXBUF[0..L+5), TXLEN, TXCHK (40_encode.md R130; layout 20_memory.md R71). -/
def storeFrame (kind len : Byte) (payload : List Byte) (b : Block) : Block :=
  { b with
    txbuf := bufWrite b.txbuf 0 (frameOf b.cfg kind len payload)
    txlen := BitVec.ofNat 9 (len.toNat + 5)
    txchk := chk b.cfg (checksumInput kind len payload) }

/-- `emit Send(TXBUF[0 .. TXLEN))` (40_encode.md R136). -/
def emitSend (b : Block) : Block :=
  emit (.send (bufRead b.txbuf b.txlen.toNat)) b

/-- ENCODE when it is performed, that is, with TXB = 0 (40_encode.md R130). -/
def encodeOp (kind len : Byte) (p : List Byte) (b : Block) : Block × Ret :=
  if b.cfg.pMax.val < len.toNat then
    (raiseFault .payloadTooLarge .tx b, .fault .payloadTooLarge)
  else
    (emitSend (setBusy (storeFrame kind len (payloadOperand len p) b)), .ok)

/-- ENCODE is held while TXB = 1 (40_encode.md R131). -/
def execEncodeFrame (kind len : Byte) (p : List Byte) (s : State) : Host.Outcome State Fault Refusal :=
  if s.block.txb then hold s else answer (encodeOp kind len p s.block) s

/-- TX_COMPLETE (40_encode.md R135). -/
def txCompleteOp (b : Block) : Block × Ret :=
  if b.txb then (clearBusy b, .ok) else (b, .ok)

def execTxComplete (s : State) : Host.Outcome State Fault Refusal :=
  answer (txCompleteOp s.block) s

end Sys2Proof.Machine
end

