-- ==== Sys2Proof/Machine/HostOps.lean ====
section
/-! DEFINITION. The host's operations and the timer's: READ_FRAME, CONSUME, REINIT, TICK, NOP (42_host_ops.md R190
to R194), and the refusal of a reserved opcode (30_encoding.md R101). -/

namespace Sys2Proof.Machine

/-- What READ_FRAME returns (42_host_ops.md R190). -/
def readResult (b : Block) : Ret :=
  if b.prdy then .frame b.dk b.dl (bufRead b.dbuf b.dl.toNat) else .notReady

/-- READ_FRAME writes nothing. -/
def execReadFrame (s : State) : Host.Outcome State Fault Refusal :=
  answer (s.block, readResult s.block) s

/-- CONSUME (42_host_ops.md R191). -/
def consumeOp (b : Block) : Block × Ret :=
  if b.prdy then (clearReady b, .ok) else (b, .notReady)

def execConsume (s : State) : Host.Outcome State Fault Refusal :=
  answer (consumeOp s.block) s

/-- The register writes of REINIT (42_host_ops.md R192): the configuration and the trace are kept. -/
def reinitOp (b : Block) : Block :=
  { b with
    rxs := RxState.waitStart.code, cur := 0#8, pk := 0#8, pl := 0#8
    pbuf := List.replicate b.cfg.pMax.val 0#8, cchk := 0#8
    prdy := false, dk := 0#8, dl := 0#8, dbuf := List.replicate b.cfg.pMax.val 0#8
    lerr := 0#4
    txb := false, txbuf := List.replicate (b.cfg.pMax.val + 5) 0#8, txlen := 0#9, txchk := 0#8
    idle := 0 }

def execReinit (s : State) : Host.Outcome State Fault Refusal :=
  answer (reinitOp s.block, .ok) s

/-- TICK counts: the extension is on and a frame is in progress (42_host_ops.md R193). -/
def tickCounts (b : Block) : Bool :=
  decide (b.cfg.pTimeout ≠ 0) && decide (b.rxs ≠ RxState.waitStart.code)

/-- TICK raises Timeout: it counts, and the count reaches P_TIMEOUT (42_host_ops.md R193; 60_exceptions.md R220). -/
def tickFires (b : Block) : Bool :=
  tickCounts b && decide (b.cfg.pTimeout ≤ b.idle + 1)

/-- TICK (42_host_ops.md R193). -/
def tickOp (b : Block) : Block :=
  if tickFires b then raiseFault .timeout .tmr { b with idle := b.idle + 1 }
  else if tickCounts b then { b with idle := b.idle + 1 }
  else b

def execTick (s : State) : Host.Outcome State Fault Refusal :=
  answer (tickOp s.block, .ok) s

/-- NOP: "no state written and no event emitted" (42_host_ops.md R194). -/
def execNop (s : State) : Host.Outcome State Fault Refusal :=
  answer (s.block, .ok) s

/-- A reserved opcode: no step is taken for it (30_encoding.md R101). -/
def execReserved (opcode : Byte) (_s : State) : Host.Outcome State Fault Refusal :=
  .refused (.reservedOpcode opcode)

end Sys2Proof.Machine
end

