-- ==== Sys2Proof/Machine/Receive.lean ====
section
/-! DEFINITION. The receive state machine: FEED_BYTE (41_receive.md R150), one rule per state (R151 to R156), the
malformed state (R157), and FEED_BUF (R161). -/

namespace Sys2Proof.Machine

/-! ### One rule per state -/

/-- FEED_BYTE in WaitStart (41_receive.md R151). -/
def rxWaitStartOp (x : Byte) (b : Block) : Block × RxOutcome :=
  if x = b.cfg.pStart then (goto .getKind { b with cur := 0#8 }, .incomplete)
  else rxFault .invalidStart b

/-- FEED_BYTE in GetKind (41_receive.md R152). -/
def rxGetKindOp (x : Byte) (b : Block) : Block × RxOutcome :=
  if kindOk b.cfg x then (goto .getLength { b with pk := x }, .incomplete)
  else rxFault .unrecognizedKind b

/-- FEED_BYTE in GetLength (41_receive.md R153). -/
def rxGetLengthOp (x : Byte) (b : Block) : Block × RxOutcome :=
  if x.toNat ≤ b.cfg.pMax.val then
    (goto (if x = 0#8 then .getChecksum else .getPayload) { b with pl := x }, .incomplete)
  else rxFault .payloadTooLarge b

/-- FEED_BYTE in GetPayload (41_receive.md R154). -/
def rxGetPayloadOp (x : Byte) (b : Block) : Block × RxOutcome :=
  let n := b.cur + 1#8
  (goto (if n = b.pl then .getChecksum else .getPayload)
    { b with pbuf := bufWrite b.pbuf b.cur.toNat [x], cur := n }, .incomplete)

/-- FEED_BYTE in GetChecksum (41_receive.md R155). -/
def rxGetChecksumOp (x : Byte) (b : Block) : Block × RxOutcome :=
  (goto .getStop { b with cchk := x }, .incomplete)

/-- The checksum recomputed in GetStop: `chk([PK, PL] ++ PBUF[0..PL))` (41_receive.md R156). -/
def recomputedChecksum (b : Block) : Byte :=
  chk b.cfg (checksumInput b.pk b.pl (bufRead b.pbuf b.pl.toNat))

/-- The FrameReady transition of GetStop (41_receive.md R156). -/
def deliver (b : Block) : Block × RxOutcome :=
  (emit (.frameReady b.pk b.pl (bufRead b.pbuf b.pl.toNat)) (goto .waitStart (latchFrame b)), .frameReady)

/-- FEED_BYTE in GetStop: a wrong stop byte takes precedence over the checksum (41_receive.md R156;
60_exceptions.md R226). -/
def rxGetStopOp (x : Byte) (b : Block) : Block × RxOutcome :=
  if x = b.cfg.pStop then
    if recomputedChecksum b = b.cchk then deliver b else rxFault .checksumMismatch b
  else rxFault .invalidStop b

/-- FEED_BYTE in a malformed state: the byte is consumed and discarded (41_receive.md R157). -/
def rxMalformedOp (b : Block) : Block × RxOutcome :=
  rxFault .malformedState b

/-- A transition, guarded by the check WF of 41_receive.md R150. -/
def guarded (op : Block → Block × RxOutcome) (b : Block) : Block × RxOutcome :=
  if receiverWf b then op b else rxMalformedOp b

/-! ### FEED_BYTE -/

/-- The transition that RXS selects (41_receive.md R150). -/
def selectedOp (x : Byte) (b : Block) : Block × RxOutcome :=
  match RxState.ofCode b.rxs with
  | some .waitStart => rxWaitStartOp x b
  | some .getKind => rxGetKindOp x b
  | some .getLength => rxGetLengthOp x b
  | some .getPayload => rxGetPayloadOp x b
  | some .getChecksum => rxGetChecksumOp x b
  | some .getStop => rxGetStopOp x b
  | none => rxMalformedOp b

/-- FEED_BYTE: IDLE <- 0, the check WF, the selected transition (41_receive.md R150). -/
def feedByteOp (x : Byte) (b : Block) : Block × RxOutcome :=
  guarded (selectedOp x) (clearIdle b)

def execFeedByte (x : Byte) (s : State) : Host.Outcome State Fault Refusal :=
  answerRx (feedByteOp x s.block) s

/-! ### The rows of the table -/

/-- A row RX.*: FEED_BYTE with RXS at the row's value. With RXS elsewhere the row is not selected, so it is not
enabled and takes no step (notes/assumptions/9.md). -/
def runRow (code : RxsCode) (op : Block → Block × RxOutcome) (s : State) : Host.Outcome State Fault Refusal :=
  if s.block.rxs = code then answerRx (guarded op (clearIdle s.block)) s else hold s

def execRxWaitStart (x : Byte) (s : State) : Host.Outcome State Fault Refusal :=
  runRow 0#3 (rxWaitStartOp x) s

def execRxGetKind (x : Byte) (s : State) : Host.Outcome State Fault Refusal :=
  runRow 1#3 (rxGetKindOp x) s

def execRxGetLength (x : Byte) (s : State) : Host.Outcome State Fault Refusal :=
  runRow 2#3 (rxGetLengthOp x) s

def execRxGetPayload (x : Byte) (s : State) : Host.Outcome State Fault Refusal :=
  runRow 3#3 (rxGetPayloadOp x) s

def execRxGetChecksum (x : Byte) (s : State) : Host.Outcome State Fault Refusal :=
  runRow 4#3 (rxGetChecksumOp x) s

def execRxGetStop (x : Byte) (s : State) : Host.Outcome State Fault Refusal :=
  runRow 5#3 (rxGetStopOp x) s

/-- Row RX.Illegal6: MalformedState; the operand byte is discarded (41_receive.md R157). -/
def execRxIllegal6 (_x : Byte) (s : State) : Host.Outcome State Fault Refusal :=
  runRow 6#3 rxMalformedOp s

/-- Row RX.Illegal7: MalformedState; the operand byte is discarded (41_receive.md R157). -/
def execRxIllegal7 (_x : Byte) (s : State) : Host.Outcome State Fault Refusal :=
  runRow 7#3 rxMalformedOp s

/-! ### FEED_BUF -/

/-- The loop of 41_receive.md R161, with `i` bytes consumed so far. -/
def feedBufOp : List Byte → Nat → Block → Block × RxOutcome × Nat
  | [], i, b => (b, .incomplete, i)
  | x :: xs, i, b =>
    match feedByteOp x b with
    | (b', .frameReady) => (b', .frameReady, i + 1)
    | (b', .incomplete) => feedBufOp xs (i + 1) b'
    | (b', .fault _) => feedBufOp xs (i + 1) b'

/-- FEED_BUF with no step of another agent between its bytes (41_receive.md R161; notes/assumptions/10.md). -/
def execFeedBuf (bytes : List Byte) (s : State) : Host.Outcome State Fault Refusal :=
  let r := feedBufOp bytes 0 s.block
  answer (r.1, .bulk r.2.1 r.2.2) s

end Sys2Proof.Machine
end

