-- ==== Sys2Proof/Syntax.lean ====
section
/-! DEFINITION. The instructions: one constructor per row of spec/opcode_table.json. The nine operations
(30_encoding.md R100), the reserved opcodes (R101), and the eight rows of the receive table that RXS selects when
FEED_BYTE is performed (R96; 41_receive.md R150). -/

namespace Sys2Proof

inductive Instr where
  /-- NOP, opcode 0x00 (42_host_ops.md R194). -/
  | nop
  /-- FEED_BYTE b, opcode 0x01 (41_receive.md R150). -/
  | feedByte (b : Byte)
  /-- ENCODE k, L, p, opcode 0x02 (40_encode.md R130); `payload` is the bytes the command carries. -/
  | encodeFrame (kind len : Byte) (payload : List Byte)
  /-- TX_COMPLETE, opcode 0x03 (40_encode.md R135). -/
  | txComplete
  /-- READ_FRAME, opcode 0x04 (42_host_ops.md R190). -/
  | readFrame
  /-- CONSUME, opcode 0x05 (42_host_ops.md R191). -/
  | consume
  /-- REINIT, opcode 0x06 (42_host_ops.md R192). -/
  | reinit
  /-- TICK, opcode 0x07 (42_host_ops.md R193). -/
  | tick
  /-- FEED_BUF, opcode 0x08 (41_receive.md R161). -/
  | feedBuf (bytes : List Byte)
  /-- A reserved opcode, 0x09 to 0xFF (30_encoding.md R101). -/
  | reserved (opcode : Byte)
  /-- Row RX.WaitStart: FEED_BYTE b with RXS = 0 (41_receive.md R151). -/
  | rxWaitStart (b : Byte)
  /-- Row RX.GetKind: FEED_BYTE b with RXS = 1 (41_receive.md R152). -/
  | rxGetKind (b : Byte)
  /-- Row RX.GetLength: FEED_BYTE b with RXS = 2 (41_receive.md R153). -/
  | rxGetLength (b : Byte)
  /-- Row RX.GetPayload: FEED_BYTE b with RXS = 3 (41_receive.md R154). -/
  | rxGetPayload (b : Byte)
  /-- Row RX.GetChecksum: FEED_BYTE b with RXS = 4 (41_receive.md R155). -/
  | rxGetChecksum (b : Byte)
  /-- Row RX.GetStop: FEED_BYTE b with RXS = 5 (41_receive.md R156). -/
  | rxGetStop (b : Byte)
  /-- Row RX.Illegal6: FEED_BYTE b with RXS = 6 (41_receive.md R157). -/
  | rxIllegal6 (b : Byte)
  /-- Row RX.Illegal7: FEED_BYTE b with RXS = 7 (41_receive.md R157). -/
  | rxIllegal7 (b : Byte)
  deriving DecidableEq, Repr

end Sys2Proof
end

