-- ==== Sys2Proof/Machine/Dispatch.lean ====
section
/-! DEFINITION. One arm per constructor of Instr: each row of spec/opcode_table.json calls its meaning. -/

namespace Sys2Proof.Machine

def exec (i : Instr) (s : State) : Host.Outcome State Fault Refusal :=
  match i with
  | .nop => Sys2Proof.Machine.execNop s
  | .feedByte b => Sys2Proof.Machine.execFeedByte b s
  | .encodeFrame k len p => Sys2Proof.Machine.execEncodeFrame k len p s
  | .txComplete => Sys2Proof.Machine.execTxComplete s
  | .readFrame => Sys2Proof.Machine.execReadFrame s
  | .consume => Sys2Proof.Machine.execConsume s
  | .reinit => Sys2Proof.Machine.execReinit s
  | .tick => Sys2Proof.Machine.execTick s
  | .feedBuf bytes => Sys2Proof.Machine.execFeedBuf bytes s
  | .reserved op => Sys2Proof.Machine.execReserved op s
  | .rxWaitStart b => Sys2Proof.Machine.execRxWaitStart b s
  | .rxGetKind b => Sys2Proof.Machine.execRxGetKind b s
  | .rxGetLength b => Sys2Proof.Machine.execRxGetLength b s
  | .rxGetPayload b => Sys2Proof.Machine.execRxGetPayload b s
  | .rxGetChecksum b => Sys2Proof.Machine.execRxGetChecksum b s
  | .rxGetStop b => Sys2Proof.Machine.execRxGetStop b s
  | .rxIllegal6 b => Sys2Proof.Machine.execRxIllegal6 b s
  | .rxIllegal7 b => Sys2Proof.Machine.execRxIllegal7 b s

end Sys2Proof.Machine
end

