-- ==== Sys2Proof/WellFormed.lean ====
section
/-! DEFINITION. Which terms of `Instr` are instructions of an instance whose bound is P_MAX: the operand bytes a
command carries are those of 30_encoding.md R100. -/

namespace Sys2Proof

/-- How many payload bytes an ENCODE command of length `len` carries: `min(L, P_MAX)` (30_encoding.md R100). -/
def carriedPayload (pMax : Fin 256) (len : Byte) : Nat :=
  min len.toNat pMax.val

/-- ENCODE carries `min(L, P_MAX)` payload bytes; FEED_BUF carries at most 255 bytes (its count is one byte,
41_receive.md R161); a reserved opcode is 0x09 to 0xFF (R101). Every other term is well formed. -/
def Instr.wellFormed (pMax : Fin 256) : Instr → Bool
  | .nop => true
  | .feedByte _ => true
  | .encodeFrame _ len payload => decide (payload.length = carriedPayload pMax len)
  | .txComplete => true
  | .readFrame => true
  | .consume => true
  | .reinit => true
  | .tick => true
  | .feedBuf bytes => decide (bytes.length ≤ 255)
  | .reserved opcode => decide (9 ≤ opcode.toNat)
  | .rxWaitStart _ => true
  | .rxGetKind _ => true
  | .rxGetLength _ => true
  | .rxGetPayload _ => true
  | .rxGetChecksum _ => true
  | .rxGetStop _ => true
  | .rxIllegal6 _ => true
  | .rxIllegal7 _ => true

/-- A command: an instruction with an opcode byte of its own. The rows RX.* have none; RXS selects them when the
command FEED_BYTE is performed (30_encoding.md R96, R100). -/
def Instr.isCommand : Instr → Bool
  | .nop => true
  | .feedByte _ => true
  | .encodeFrame _ _ _ => true
  | .txComplete => true
  | .readFrame => true
  | .consume => true
  | .reinit => true
  | .tick => true
  | .feedBuf _ => true
  | .reserved _ => true
  | .rxWaitStart _ => false
  | .rxGetKind _ => false
  | .rxGetLength _ => false
  | .rxGetPayload _ => false
  | .rxGetChecksum _ => false
  | .rxGetStop _ => false
  | .rxIllegal6 _ => false
  | .rxIllegal7 _ => false

end Sys2Proof
end

