-- ==== Sys2Proof/Decode.lean ====
section
/-! DEFINITION. The command decoder and encoder (30_encoding.md R100, R101), the selection of a receive row by RXS
(R96), and the packing of bytes into one number used by the host's table words and by the ports (R102). -/

namespace Sys2Proof

/-! ### Bytes and numbers -/

/-- The first `n` bytes of a number, byte i at bits [8i+7:8i] (30_encoding.md R102). -/
def unpackBytes : Nat → Nat → List Byte
  | 0, _ => []
  | n + 1, w => BitVec.ofNat 8 w :: unpackBytes n (w / 256)

/-- The number whose byte i stands at bits [8i+7:8i] (30_encoding.md R102). -/
def packBytes : List Byte → Nat
  | [] => 0
  | b :: bs => b.toNat + 256 * packBytes bs

/-! ### Decoding a command stream -/

/-- Why no command stands at the head of a stream. -/
inductive DecodeError where
  /-- The stream is empty. -/
  | endOfStream
  /-- The stream ends inside the command that this opcode byte begins. -/
  | truncated (opcode : Byte)
  deriving DecidableEq, Repr

/-- The first `n` bytes and the rest, or the rejection by name of a command the stream does not hold whole. -/
def takeOperands (opcode : Byte) (n : Nat) (bytes : List Byte) : Except DecodeError (List Byte × List Byte) :=
  if n ≤ bytes.length then .ok (bytes.take n, bytes.drop n) else .error (.truncated opcode)

/-- FEED_BYTE's operand: b (1 byte). -/
def decodeFeedByte : List Byte → Except DecodeError (Instr × List Byte)
  | b :: rest => .ok (.feedByte b, rest)
  | [] => .error (.truncated 0x01#8)

/-- ENCODE's operands: k, L, then min(L, P_MAX) payload bytes. -/
def decodeEncode (pMax : Fin 256) : List Byte → Except DecodeError (Instr × List Byte)
  | k :: len :: rest =>
    match takeOperands 0x02#8 (carriedPayload pMax len) rest with
    | .ok (p, rest') => .ok (.encodeFrame k len p, rest')
    | .error e => .error e
  | _ => .error (.truncated 0x02#8)

/-- FEED_BUF's operands: n (1 byte), then n bytes. -/
def decodeFeedBuf : List Byte → Except DecodeError (Instr × List Byte)
  | n :: rest =>
    match takeOperands 0x08#8 n.toNat rest with
    | .ok (s, rest') => .ok (.feedBuf s, rest')
    | .error e => .error e
  | [] => .error (.truncated 0x08#8)

/-- The command at the head of a stream and the rest of the stream (30_encoding.md R100). A reserved opcode is
read as `reserved`, which no step performs (R101; notes/assumptions/6.md). -/
def decode (pMax : Fin 256) : List Byte → Except DecodeError (Instr × List Byte)
  | [] => .error .endOfStream
  | op :: rest =>
    match op.toNat with
    | 0 => .ok (.nop, rest)
    | 1 => decodeFeedByte rest
    | 2 => decodeEncode pMax rest
    | 3 => .ok (.txComplete, rest)
    | 4 => .ok (.readFrame, rest)
    | 5 => .ok (.consume, rest)
    | 6 => .ok (.reinit, rest)
    | 7 => .ok (.tick, rest)
    | 8 => decodeFeedBuf rest
    | _ => .ok (.reserved op, rest)

/-! ### Encoding -/

/-- The opcode byte of 30_encoding.md R100; a row RX.* is encoded as "opcode 0x01" (41_receive.md R151 to R157). -/
def opcodeOf : Instr → Byte
  | .nop => 0x00#8
  | .feedByte _ => 0x01#8
  | .encodeFrame _ _ _ => 0x02#8
  | .txComplete => 0x03#8
  | .readFrame => 0x04#8
  | .consume => 0x05#8
  | .reinit => 0x06#8
  | .tick => 0x07#8
  | .feedBuf _ => 0x08#8
  | .reserved opcode => opcode
  | .rxWaitStart _ => 0x01#8
  | .rxGetKind _ => 0x01#8
  | .rxGetLength _ => 0x01#8
  | .rxGetPayload _ => 0x01#8
  | .rxGetChecksum _ => 0x01#8
  | .rxGetStop _ => 0x01#8
  | .rxIllegal6 _ => 0x01#8
  | .rxIllegal7 _ => 0x01#8

/-- The operand bytes after the opcode (30_encoding.md R100). -/
def operandBytes : Instr → List Byte
  | .nop => []
  | .feedByte b => [b]
  | .encodeFrame k len p => k :: len :: p
  | .txComplete => []
  | .readFrame => []
  | .consume => []
  | .reinit => []
  | .tick => []
  | .feedBuf bytes => BitVec.ofNat 8 bytes.length :: bytes
  | .reserved _ => []
  | .rxWaitStart b => [b]
  | .rxGetKind b => [b]
  | .rxGetLength b => [b]
  | .rxGetPayload b => [b]
  | .rxGetChecksum b => [b]
  | .rxGetStop b => [b]
  | .rxIllegal6 b => [b]
  | .rxIllegal7 b => [b]

/-- "Each command is an opcode byte followed by its operand bytes" (30_encoding.md R100). -/
def encode (i : Instr) : List Byte :=
  opcodeOf i :: operandBytes i

/-- A program written as a command stream (30_encoding.md R100). -/
def encodeProgram (is : List Instr) : List Byte :=
  is.flatMap encode

/-! ### The rows that RXS selects -/

/-- The receive row that FEED_BYTE b performs when the register holds `rxs` (30_encoding.md R96; 41_receive.md R150,
"The transition is selected by RXS"). -/
def selectRow (rxs : RxsCode) (b : Byte) : Instr :=
  match rxs.toNat with
  | 0 => .rxWaitStart b
  | 1 => .rxGetKind b
  | 2 => .rxGetLength b
  | 3 => .rxGetPayload b
  | 4 => .rxGetChecksum b
  | 5 => .rxGetStop b
  | 6 => .rxIllegal6 b
  | _ => .rxIllegal7 b

/-- The value of RXS that is part of a row's encoding ("Encoding: opcode 0x01, RXS = 0 (row `RX.WaitStart`)"). -/
def Instr.rowCode : Instr → Option RxsCode
  | .nop => none
  | .feedByte _ => none
  | .encodeFrame _ _ _ => none
  | .txComplete => none
  | .readFrame => none
  | .consume => none
  | .reinit => none
  | .tick => none
  | .feedBuf _ => none
  | .reserved _ => none
  | .rxWaitStart _ => some 0#3
  | .rxGetKind _ => some 1#3
  | .rxGetLength _ => some 2#3
  | .rxGetPayload _ => some 3#3
  | .rxGetChecksum _ => some 4#3
  | .rxGetStop _ => some 5#3
  | .rxIllegal6 _ => some 6#3
  | .rxIllegal7 _ => some 7#3

/-- A row's decoding: the command FEED_BYTE read from the stream, refined by RXS; any other command as it is. -/
def decodeUnder (pMax : Fin 256) (rxs : RxsCode) (bytes : List Byte) : Except DecodeError (Instr × List Byte) :=
  match decode pMax bytes with
  | .ok (.feedByte b, rest) => .ok (selectRow rxs b, rest)
  | r => r

/-! ### The host's table words -/

/-- How many bytes the command at the head of some bytes has, a missing byte counting as 0: "The length of a command
is known from its opcode byte and, for ENCODE and FEED_BUF, from its second or third byte" (30_encoding.md R100). -/
def commandLength (pMax : Fin 256) (bytes : List Byte) : Nat :=
  match (bytes.getD 0 0#8).toNat with
  | 1 => 2
  | 2 => 3 + carriedPayload pMax (bytes.getD 2 0#8)
  | 8 => 2 + (bytes.getD 1 0#8).toNat
  | _ => 1

/-- The bytes of the one command that a table word gives: the word's own bytes, the first byte at bits 7..0, and as
many operand bytes of zeros as the command still needs. -/
def commandOfWord (pMax : Fin 256) (nbits w : Nat) : List Byte :=
  let own := unpackBytes ((nbits + 7) / 8) w
  let n := commandLength pMax own
  own.take n ++ List.replicate (n - own.length) 0#8

/-- The instruction the decoder reads from a table word, for an instance with the reference bound. A word of fewer
than 8 bits is a value of RXS (the rows RX.*, 3 bits wide): it selects a row, with operand byte 0. The rows RX.*
share their numbers with the opcodes 0x00 to 0x07, so a word of 8 bits or more is always read as a command
(notes/assumptions/9.md). -/
def decodeTableWord (nbits w : Nat) : Option Instr :=
  if 0 < nbits ∧ nbits < 8 then some (selectRow (BitVec.ofNat 3 w) 0#8)
  else
    match decode Config.reference.pMax (commandOfWord Config.reference.pMax nbits w) with
    | .ok (i, _) => some i
    | .error _ => none

end Sys2Proof
end

