-- ==== Sys2Proof/Machine/Fetch.lean ====
section
/-! DEFINITION. Where the next command comes from: the head of the command stream (30_encoding.md R100), and when
its operation is not enabled (40_encode.md R131). -/

namespace Sys2Proof.Machine

/-- The command at the head of the stream and the rest. How many bytes it has depends on P_MAX (30_encoding.md
R100). -/
def fetch (s : State) : Except DecodeError (Instr × List Byte) :=
  decode s.block.cfg.pMax s.cmds

/-- The state in which a fetched command is performed: its bytes have left the stream. -/
def afterFetch (rest : List Byte) (s : State) : State :=
  { s with cmds := rest }

/-- "ENCODE is enabled only when TXB = 0; while TXB = 1 it is held" (20_memory.md R83). Every other command is always
enabled (60_exceptions.md R230). -/
def held (i : Instr) (b : Block) : Bool :=
  match i with
  | .encodeFrame _ _ _ => b.txb
  | .nop => false
  | .feedByte _ => false
  | .txComplete => false
  | .readFrame => false
  | .consume => false
  | .reinit => false
  | .tick => false
  | .feedBuf _ => false
  | .reserved _ => false
  | .rxWaitStart _ => false
  | .rxGetKind _ => false
  | .rxGetLength _ => false
  | .rxGetPayload _ => false
  | .rxGetChecksum _ => false
  | .rxGetStop _ => false
  | .rxIllegal6 _ => false
  | .rxIllegal7 _ => false

/-- A word of fewer than 8 bits names a receive row: RXS takes its value, and FEED_BYTE with operand 0 comes next. -/
def placeRow (w : Nat) (s : State) : State :=
  { s with block := { s.block with rxs := BitVec.ofNat 3 w }, cmds := 0x01#8 :: 0x00#8 :: s.cmds }

/-- A word of 8 bits or more is a command: its bytes come next in the stream. -/
def placeCommand (nbits w : Nat) (s : State) : State :=
  { s with cmds := commandOfWord s.block.cfg.pMax nbits w ++ s.cmds }

end Sys2Proof.Machine
end

