-- ==== Sys2Proof/Machine/Step.lean ====
section
/-! DEFINITION. One step of the machine: the command at the head of the stream is performed, once it is enabled
(20_memory.md R79, R83; 30_encoding.md R100). -/

namespace Sys2Proof.Machine

/-- An empty stream asks for nothing, and the block "keeps all of its state between operations" (60_exceptions.md
R235; notes/assumptions/4.md). A held command stays at the head: "the stream stops at that command"
(95_test_vectors.md P3; notes/assumptions/7.md). -/
def step (s : State) : Host.Outcome State Fault Refusal :=
  match fetch s with
  | .error .endOfStream => .next s
  | .error (.truncated op) => .refused (.truncatedCommand op)
  | .ok (i, rest) => if held i s.block then .next s else exec i (afterFetch rest s)

/-- The host's table word as the next command of the stream (`decodeTableWord` reads the same word). -/
def State.withFetchWord (s : State) (nbits w : Nat) : State :=
  if 0 < nbits ∧ nbits < 8 then placeRow w s else placeCommand nbits w s

end Sys2Proof.Machine
end

