-- ==== Sys2Proof/Machine/Agents.lean ====
section
/-! DEFINITION. The four agents of 00_scope.md R12 around one instance, each with the operations it has still to
issue, in its program order. A schedule (which agent moves next) is any list of agents, so every interleaving of
20_memory.md R79 is a run. Here a held ENCODE makes the Host wait while the others go on (20_memory.md R83), and
FEED_BUF is the sequence of FEED_BYTE steps that 41_receive.md R161 says it is: steps of other agents may fall
between its bytes. notes/assumptions/13.md. -/

namespace Sys2Proof.Machine

/-- The agents of 00_scope.md R12. -/
inductive Agent where
  | host | byteSource | transport | timer
  deriving DecidableEq, Repr

/-- Which agent issues an operation (00_scope.md R12; 30_encoding.md R100); no operation checks it
(60_exceptions.md R230). FEED_BUF is the Host's, "acting as Byte source". A reserved opcode is nobody's. -/
def agentOf : Instr → Option Agent
  | .nop => some .host
  | .feedByte _ => some .byteSource
  | .encodeFrame _ _ _ => some .host
  | .txComplete => some .transport
  | .readFrame => some .host
  | .consume => some .host
  | .reinit => some .host
  | .tick => some .timer
  | .feedBuf _ => some .host
  | .reserved _ => none
  | .rxWaitStart _ => some .byteSource
  | .rxGetKind _ => some .byteSource
  | .rxGetLength _ => some .byteSource
  | .rxGetPayload _ => some .byteSource
  | .rxGetChecksum _ => some .byteSource
  | .rxGetStop _ => some .byteSource
  | .rxIllegal6 _ => some .byteSource
  | .rxIllegal7 _ => some .byteSource

/-- A FEED_BUF in progress: the bytes not fed yet, and how many were fed (`i` of 41_receive.md R161). -/
structure Bulk where
  rest     : List Byte
  consumed : Nat
  deriving DecidableEq, Repr

/-- One instance and its agents. The Host's queue holds operations, the Byte source's the bytes it will feed, the
Transport's and the Timer's how many signals they will give. -/
structure System where
  state      : State
  bulk       : Option Bulk
  hostOps    : List Instr
  bytes      : List Byte
  completes  : Nat
  ticks      : Nat
  deriving DecidableEq, Repr

/-- The machine's state after an operation; an operation that is refused takes no step (30_encoding.md R101). -/
def perform (i : Instr) (s : State) : State :=
  match exec i s with
  | .next t => t
  | .fault _ => s
  | .refused _ => s

/-- FEED_BUF's return (41_receive.md R161). -/
def finishBulk (o : RxOutcome) (n : Nat) (s : State) : State :=
  { s with rets := s.rets ++ [.bulk o n] }

/-- One FEED_BYTE step of a FEED_BUF in progress: it returns on FrameReady and after the last byte. -/
def bulkMove (u : Bulk) (y : System) : System :=
  match u.rest with
  | [] => { y with state := finishBulk .incomplete u.consumed y.state, bulk := none }
  | x :: xs =>
    let r := feedByteOp x y.state.block
    let fed : State := { y.state with block := r.1 }
    if r.2 = .frameReady then { y with state := finishBulk .frameReady (u.consumed + 1) fed, bulk := none }
    else if xs = [] then { y with state := finishBulk .incomplete (u.consumed + 1) fed, bulk := none }
    else { y with state := fed, bulk := some ⟨xs, u.consumed + 1⟩ }

/-- The Host's next step: the next byte of its FEED_BUF, or its next operation; a held ENCODE makes it wait. At a
reserved opcode it passes its turn for ever, and nothing behind it is performed: DESIGN CHOICE, safe,
notes/assumptions/13.md. -/
def hostMove (y : System) : System :=
  match y.bulk with
  | some u => bulkMove u y
  | none =>
    match y.hostOps with
    | [] => y
    | .feedBuf bytes :: ops => bulkMove ⟨bytes, 0⟩ { y with hostOps := ops }
    | .reserved _ :: _ => y
    | i :: ops => if held i y.state.block then y else { y with state := perform i y.state, hostOps := ops }

/-- The Byte source's next step: one FEED_BYTE (00_scope.md R12). -/
def byteSourceMove (y : System) : System :=
  match y.bytes with
  | [] => y
  | x :: xs => { y with state := perform (.feedByte x) y.state, bytes := xs }

/-- The Transport's next step: one TX_COMPLETE (00_scope.md R12). -/
def transportMove (y : System) : System :=
  match y.completes with
  | 0 => y
  | n + 1 => { y with state := perform .txComplete y.state, completes := n }

/-- The Timer's next step: one TICK (00_scope.md R12). -/
def timerMove (y : System) : System :=
  match y.ticks with
  | 0 => y
  | n + 1 => { y with state := perform .tick y.state, ticks := n }

/-- One turn of an agent. An agent with nothing to issue, or that waits, leaves everything as it is. -/
def move : Agent → System → System
  | .host => hostMove
  | .byteSource => byteSourceMove
  | .transport => transportMove
  | .timer => timerMove

/-- A run under a schedule. -/
def runSchedule : List Agent → System → System
  | [], y => y
  | a :: as, y => runSchedule as (move a y)

end Sys2Proof.Machine
end

