-- ==== Sys2Proof/Machine/Assembly.lean ====
section
/-! DEFINITION. The written form of operations (30_encoding.md R103) and the pseudo-operations, which "stand for
sequences of operations and have no opcode" (R104). -/

namespace Sys2Proof.Machine

/-- The pseudo-operations of 30_encoding.md R104. -/
inductive Pseudo where
  | feeds (bytes : List Byte)
  | send (kind : Byte) (payload : List Byte)
  | take
  | feedFrame (kind : Byte) (payload : List Byte)
  deriving DecidableEq, Repr

/-- The expansion of a pseudo-operation under a configuration (30_encoding.md R104). DESIGN CHOICE where the rule is
silent: the length of a list of more than 255 bytes is its count modulo 256, and SEND carries its whole list, also
beyond P_MAX (notes/assumptions/16.md). -/
def Pseudo.expand (c : Config) : Pseudo → List Instr
  | .feeds bytes => bytes.map .feedByte
  | .send kind payload => [.encodeFrame kind (BitVec.ofNat 8 payload.length) payload]
  | .take => [.readFrame, .consume]
  | .feedFrame kind payload => (frameOf c kind (BitVec.ofNat 8 payload.length) payload).map .feedByte

/-- A hexadecimal digit. -/
def hexDigit (n : Nat) : String :=
  match n % 16 with
  | 10 => "A" | 11 => "B" | 12 => "C" | 13 => "D" | 14 => "E" | 15 => "F"
  | d => toString d

/-- A byte inside a list: two hexadecimal digits "written without `0x`" (30_encoding.md R103). -/
def hexByte (b : Byte) : String :=
  hexDigit (b.toNat / 16) ++ hexDigit b.toNat

/-- A byte outside a list: "with `0x` elsewhere" (30_encoding.md R103). -/
def hexOperand (b : Byte) : String :=
  "0x" ++ hexByte b

/-- `[b0 b1 ...]`. -/
def hexList (bytes : List Byte) : String :=
  "[" ++ String.intercalate " " (bytes.map hexByte) ++ "]"

/-- One operation on one line (30_encoding.md R103). A row RX.* is written as the FEED that it is; a reserved opcode
has no written form. -/
def writtenForm : Instr → Option String
  | .nop => some "NOP"
  | .feedByte b => some ("FEED " ++ hexOperand b)
  | .encodeFrame k len p => some ("ENCODE " ++ hexOperand k ++ ", " ++ hexOperand len ++ ", " ++ hexList p)
  | .txComplete => some "TXDONE"
  | .readFrame => some "READ"
  | .consume => some "CONSUME"
  | .reinit => some "REINIT"
  | .tick => some "TICK"
  | .feedBuf bytes => some ("FEED_BUF " ++ hexList bytes)
  | .reserved _ => none
  | .rxWaitStart b => some ("FEED " ++ hexOperand b)
  | .rxGetKind b => some ("FEED " ++ hexOperand b)
  | .rxGetLength b => some ("FEED " ++ hexOperand b)
  | .rxGetPayload b => some ("FEED " ++ hexOperand b)
  | .rxGetChecksum b => some ("FEED " ++ hexOperand b)
  | .rxGetStop b => some ("FEED " ++ hexOperand b)
  | .rxIllegal6 b => some ("FEED " ++ hexOperand b)
  | .rxIllegal7 b => some ("FEED " ++ hexOperand b)

end Sys2Proof.Machine
end

