-- ==== Sys2Proof/Machine/Clocked.lean ====
section
/-! DEFINITION. One cycle of a clocked realization (30_encoding.md R102): the requested operations are performed in
the order of 20_memory.md R81. A port of P_MAX bytes is the number whose byte i stands at bits [8i+7:8i].
notes/assumptions/14.md. -/

namespace Sys2Proof.Machine

/-- The input ports other than clk (30_encoding.md R102). -/
structure Inputs where
  rst       : Bool
  reinit    : Bool
  rxValid   : Bool
  rxByte    : Byte
  txReq     : Bool
  txKind    : Byte
  txLen     : Byte
  txPayload : Nat
  txDone    : Bool
  rdReq     : Bool
  consume   : Bool
  tick      : Bool
  deriving DecidableEq, Repr

/-- No request input asserted: the cycle that stands for NOP (42_host_ops.md R194). -/
def Inputs.quiet : Inputs where
  rst := false
  reinit := false
  rxValid := false
  rxByte := 0#8
  txReq := false
  txKind := 0#8
  txLen := 0#8
  txPayload := 0
  txDone := false
  rdReq := false
  consume := false
  tick := false

/-- The output ports (30_encoding.md R102). -/
structure Outputs where
  rxOutcome    : BitVec 2
  rxFault      : Code4
  txAck        : Bool
  txResult     : BitVec 2
  txFault      : Code4
  sendValid    : Bool
  sendBuf      : Nat
  sendLen      : BitVec 9
  txChk        : Byte
  txBusy       : Bool
  rdOk         : Bool
  rdKind       : Byte
  rdLen        : Byte
  rdPayload    : Nat
  payloadReady : Bool
  frameReady   : Bool
  fltValid     : BitVec 3
  fltCodeRx    : Code4
  fltCodeTx    : Code4
  fltCodeTmr   : Code4
  lastError    : Code4
  deriving DecidableEq, Repr

/-- The status ports show the state at the end of the cycle (70_reset_and_hazards.md R270); the ports of operations
that are not performed are 0 (30_encoding.md R102). -/
def statusOutputs (b : Block) : Outputs where
  rxOutcome := 0#2
  rxFault := 0#4
  txAck := false
  txResult := 0#2
  txFault := 0#4
  sendValid := false
  sendBuf := packBytes b.txbuf
  sendLen := b.txlen
  txChk := b.txchk
  txBusy := b.txb
  rdOk := false
  rdKind := 0#8
  rdLen := 0#8
  rdPayload := 0
  payloadReady := b.prdy
  frameReady := false
  fltValid := 0#3
  fltCodeRx := 0#4
  fltCodeTx := 0#4
  fltCodeTmr := 0#4
  lastError := b.lerr

/-- Ports of READ_FRAME: DK, DL, DBUF when rd_ok = 1, else zeros (30_encoding.md R102). -/
def readOutputs (b : Block) (o : Outputs) : Outputs :=
  if b.prdy then { o with rdOk := true, rdKind := b.dk, rdLen := b.dl, rdPayload := packBytes b.dbuf } else o

/-- Ports of FEED_BYTE: the outcome, and a FrameReady or Fault event from RX. -/
def rxOutputs (r : RxOutcome) (o : Outputs) : Outputs :=
  { o with
    rxOutcome := r.code
    rxFault := r.faultCode
    frameReady := decide (r = .frameReady)
    fltValid := if r.faultCode = 0#4 then o.fltValid else o.fltValid ||| 1#3
    fltCodeRx := r.faultCode }

/-- Ports of ENCODE: the acknowledgement, the result, and a Send event or a Fault event from TX. -/
def txOutputs (r : Ret) (o : Outputs) : Outputs :=
  { o with
    txAck := true
    txResult := r.txResult
    txFault := r.txFault
    sendValid := decide (r = .ok)
    fltValid := if r.txFault = 0#4 then o.fltValid else o.fltValid ||| 2#3
    fltCodeTx := r.txFault }

/-- Ports of TICK: a Fault event from TMR. -/
def tickOutputs (o : Outputs) : Outputs :=
  { o with fltValid := o.fltValid ||| 4#3, fltCodeTmr := FaultKind.timeout.code }

/-- tx_payload's bytes (30_encoding.md R102). -/
def portPayload (inp : Inputs) (b : Block) : List Byte :=
  unpackBytes b.cfg.pMax.val inp.txPayload

/-- ENCODE's turn in the cycle: a request is performed when TXB is 0 and held otherwise (30_encoding.md R102,
tx_ack). -/
def txGranted (inp : Inputs) (b : Block) : Bool :=
  inp.txReq && !b.txb

/-- The block after CONSUME's turn. -/
def afterConsume (inp : Inputs) (b : Block) : Block :=
  if inp.consume then (consumeOp b).1 else b

/-- The block after TX_COMPLETE's turn. -/
def afterTxDone (inp : Inputs) (b : Block) : Block :=
  if inp.txDone then (txCompleteOp (afterConsume inp b)).1 else afterConsume inp b

/-- The block after FEED_BYTE's turn. -/
def afterRx (inp : Inputs) (b : Block) : Block :=
  if inp.rxValid then (feedByteOp inp.rxByte (afterTxDone inp b)).1 else afterTxDone inp b

/-- The block after ENCODE's turn. -/
def afterTx (inp : Inputs) (b : Block) : Block :=
  if txGranted inp (afterRx inp b) then
    (encodeOp inp.txKind inp.txLen (portPayload inp b) (afterRx inp b)).1
  else afterRx inp b

/-- The block after TICK's turn, the last of the cycle. -/
def afterTick (inp : Inputs) (b : Block) : Block :=
  if inp.tick then tickOp (afterTx inp b) else afterTx inp b

/-- The block at the end of a cycle: construction while rst = 1 (70_reset_and_hazards.md R250), REINIT alone, or
READ_FRAME, CONSUME, TX_COMPLETE, FEED_BYTE, ENCODE, TICK in this order (20_memory.md R81). -/
def cycleBlock (inp : Inputs) (b : Block) : Block :=
  if inp.rst then Block.construct b.cfg
  else if inp.reinit then reinitOp b
  else afterTick inp b

/-- The outputs of the requested operations, each from the state that its turn finds. -/
def requestOutputs (inp : Inputs) (b : Block) (o : Outputs) : Outputs :=
  let o := if inp.rdReq then readOutputs b o else o
  let o := if inp.rxValid then rxOutputs (feedByteOp inp.rxByte (afterTxDone inp b)).2 o else o
  let o :=
    if txGranted inp (afterRx inp b) then
      txOutputs (encodeOp inp.txKind inp.txLen (portPayload inp b) (afterRx inp b)).2 o
    else o
  if inp.tick && tickFires (afterTx inp b) then tickOutputs o else o

/-- The outputs of a cycle. -/
def cycleOutputs (inp : Inputs) (b : Block) : Outputs :=
  if inp.rst || inp.reinit then statusOutputs (cycleBlock inp b)
  else requestOutputs inp b (statusOutputs (cycleBlock inp b))

/-- The operations that a cycle requests, in the order of 20_memory.md R81. -/
def requestedOps (inp : Inputs) (b : Block) : List Instr :=
  if inp.reinit then [.reinit]
  else
    (if inp.rdReq then [.readFrame] else []) ++ (if inp.consume then [.consume] else []) ++
    (if inp.txDone then [.txComplete] else []) ++ (if inp.rxValid then [.feedByte inp.rxByte] else []) ++
    (if inp.txReq then [.encodeFrame inp.txKind inp.txLen (portPayload inp b)] else []) ++
    (if inp.tick then [.tick] else [])

end Sys2Proof.Machine
end

