-- ==== Sys2Proof/Machine/Instances.lean ====
section
/-! DEFINITION. Several instances (60_exceptions.md R233): "Two instances share no state: no buffer, no flag, no
register" (20_memory.md R86). They are named by position; each has its own configuration. -/

namespace Sys2Proof.Machine

/-- An operation on the `n`-th instance of a system; the others are not reached. A reserved opcode leaves its instance
as it is (notes/assumptions/13.md). -/
def performAt (n : Nat) (i : Instr) (instances : List State) : List State :=
  instances.modify n (perform i)

end Sys2Proof.Machine
end

