-- ==== Sys2Proof/Safety.lean ====
section
/-! DEFINITION. The terms that claims use: the invariants of 10_state.md R50 with R30's array lengths and R34, the
faults the block can raise, runs of operations, and well-formed programs. -/

namespace Sys2Proof.Machine

/-- The state's invariant: 10_state.md R50 items 1 to 7, R34's `CUR <= PL <= P_MAX`, and the widths of R30. -/
structure BlockInv (b : Block) : Prop where
  /-- PBUF, DBUF have P_MAX bytes, TXBUF P_MAX + 5 (R30). -/
  arrays : Memory.wf b = true
  /-- Item 1: RXS is one of 0..5. -/
  state_legal : b.rxs.toNat ≤ 5
  /-- R34, and item 2. -/
  length_bounded : b.pl.toNat ≤ b.cfg.pMax.val
  /-- R34. -/
  cursor_bounded : b.cur.toNat ≤ b.pl.toNat
  /-- CUR is 0 from the start sentinel to the first payload byte (41_receive.md R151, R153 "CUR stays 0"): what makes
  items 3 and 4 hold after the length byte. DEDUCED, safe: notes/assumptions/15.md. -/
  cursor_reset : b.rxs = RxState.getKind.code ∨ b.rxs = RxState.getLength.code → b.cur = 0#8
  /-- Item 3. -/
  payload_open : b.rxs = RxState.getPayload.code → b.cur.toNat < b.pl.toNat
  /-- Item 4. -/
  payload_full : b.rxs = RxState.getChecksum.code ∨ b.rxs = RxState.getStop.code → b.cur = b.pl
  /-- Item 5. -/
  delivered_bounded : b.prdy = true → b.dl.toNat ≤ b.cfg.pMax.val
  /-- Item 6: while busy, TXLEN counts the frame that TXBUF holds. -/
  sent_length : b.txb = true → ∃ len : Byte, b.txbuf[2]? = some len ∧ b.txlen.toNat = len.toNat + 5
  /-- Item 6: the frame's sentinels and checksum. -/
  sent_frame : b.txb = true → b.txbuf[0]? = some b.cfg.pStart ∧
    b.txbuf[b.txlen.toNat - 1]? = some b.cfg.pStop ∧ b.txbuf[b.txlen.toNat - 2]? = some b.txchk
  /-- Item 7. -/
  idle_off : b.cfg.pTimeout = 0 → b.idle = 0
  /-- Item 7. -/
  idle_waiting : b.rxs = RxState.waitStart.code → b.idle = 0
  /-- IDLE's width, 0..P_TIMEOUT (R30). -/
  idle_bounded : b.idle ≤ b.cfg.pTimeout

/-- The check WF, in the words of 41_receive.md R150. -/
def receiveWf (b : Block) : Prop :=
  b.rxs.toNat ≤ 5 ∧ (b.rxs.toNat = 3 ∨ b.rxs.toNat = 4 ∨ b.rxs.toNat = 5 → b.pl.toNat ≤ b.cfg.pMax.val) ∧
    (b.rxs.toNat = 3 → b.cur.toNat < b.pl.toNat)

/-- The faults the block raises: never TransmitBusy or ReceiveBusy (60_exceptions.md R218, R219). -/
def FaultKind.raised : FaultKind → Bool
  | .transmitBusy => false
  | .receiveBusy => false
  | .invalidStart => true
  | .unrecognizedKind => true
  | .payloadTooLarge => true
  | .checksumMismatch => true
  | .invalidStop => true
  | .malformedState => true
  | .timeout => true

/-- A Fault event whose code and source 30_encoding.md R98 lists together. -/
def Event.legal : Event → Bool
  | .fault .payloadTooLarge .tx => true
  | .fault .timeout .tmr => true
  | .fault k .rx => k.raised && !(k == .timeout)
  | .fault _ _ => false
  | .frameReady _ len p => decide (p.length = len.toNat)
  | .send _ => true

/-- LERR holds None or the code of a fault the block raises. -/
def lerrLegal (b : Block) : Prop :=
  b.lerr = 0#4 ∨ ∃ k : FaultKind, k.raised = true ∧ b.lerr = k.code

/-- The operations of a list one after another, up to the first that is refused. -/
def execAll : List Instr → State → Host.Outcome State Fault Refusal
  | [], s => .next s
  | i :: is, s =>
    match exec i s with
    | .next t => execAll is t
    | .fault r => .fault r
    | .refused r => .refused r

/-- A program for an instance with bound P_MAX: well-formed commands, none of them reserved. -/
def programOk (pMax : Fin 256) (is : List Instr) : Prop :=
  ∀ i ∈ is, i.wellFormed pMax = true ∧ i.isCommand = true ∧ ∀ op, i ≠ .reserved op

/-- The state after a FEED_BYTE that raises fault `code`: IDLE is 0, the Error Manager action of 60_exceptions.md
R221 has run, the outcome is returned, and nothing else is different. -/
def State.afterRxFault (s : State) (code : FaultKind) : State :=
  { s with
    block := { s.block with
      idle := 0
      lerr := code.code
      rxs := 0#3
      trace := s.block.trace ++ [.fault code .rx] }
    rets := s.rets ++ [.rx (.fault code)] }

/-- The transmit registers of one block in place of another's: TXB, TXBUF, TXLEN, TXCHK. -/
def Block.withTx (b c : Block) : Block :=
  { b with txb := c.txb, txbuf := c.txbuf, txlen := c.txlen, txchk := c.txchk }

/-- The receive registers of one block in place of another's that no transmit step writes: CUR, PK, PL, PBUF, CCHK,
PRDY, DK, DL, DBUF. -/
def Block.withRx (b c : Block) : Block :=
  { b with
    cur := c.cur, pk := c.pk, pl := c.pl, pbuf := c.pbuf, cchk := c.cchk
    prdy := c.prdy, dk := c.dk, dl := c.dl, dbuf := c.dbuf }

/-- A block in place of the machine's. -/
def State.withBlock (s : State) (b : Block) : State :=
  { s with block := b }

end Sys2Proof.Machine
end

