-- ==== Sys2Proof/Certificates/Slice0/Obligations.lean ====
section
/-! DEFINITION. The statements for the provers. Each docstring names the rule of spec/ that the statement formalises.
`s.block` is the state of the instance (10_state.md R30); a record update names every register that changes, so an
equation with one is also the instruction's frame. -/

open Sys2Proof Sys2Proof.Machine

/-! ### Encoding -/

/-- 30_encoding.md R100: decoding an encoded command gives it back, with every operand, whatever follows it in the
stream. -/
def Obligations.DecodeOfEncodedCommand : Prop :=
  ∀ (pMax : Fin 256) (i : Instr) (rest : List Byte), i.wellFormed pMax = true → i.isCommand = true →
    decode pMax (encode i ++ rest) = .ok (i, rest)

/-- 30_encoding.md R100: a decoded command is well formed, and encoding it gives back exactly the bytes it was read
from, so each stream has one reading. -/
def Obligations.EncodeOfDecodedCommand : Prop :=
  ∀ (pMax : Fin 256) (bytes rest : List Byte) (i : Instr), decode pMax bytes = .ok (i, rest) →
    encode i ++ rest = bytes ∧ i.wellFormed pMax = true ∧ i.isCommand = true

/-- 41_receive.md R151 to R157, "Encoding: opcode 0x01, RXS = n": a row RX.* is read from opcode 0x01 and its operand
when RXS holds the row's value, and every value of RXS selects exactly one row. -/
def Obligations.RowDecodesUnderItsReceiveState : Prop :=
  (∀ (pMax : Fin 256) (i : Instr) (c : RxsCode) (rest : List Byte), i.rowCode = some c →
    decodeUnder pMax c (encode i ++ rest) = .ok (i, rest)) ∧
  (∀ (c : RxsCode) (x : Byte), (selectRow c x).rowCode = some c)

/-- 30_encoding.md R100: the lengths of the commands. -/
def Obligations.CommandLengthsAreGiven : Prop :=
  (∀ i ∈ [Instr.nop, .txComplete, .readFrame, .consume, .reinit, .tick], (encode i).length = 1) ∧
  (∀ x : Byte, (encode (.feedByte x)).length = 2) ∧
  (∀ (pMax : Fin 256) (k len : Byte) (p : List Byte), (Instr.encodeFrame k len p).wellFormed pMax = true →
    (encode (.encodeFrame k len p)).length = 3 + min len.toNat pMax.val) ∧
  (∀ bs : List Byte, (encode (.feedBuf bs)).length = 2 + bs.length)

/-- 30_encoding.md R100, with the bytes that 95_test_vectors.md P1, P2 and P3 write out (a sanity statement). That the
reserved byte 0xFF is read as an instruction of its own, which is then refused, is the model's reading of R101
(notes/assumptions/6.md). -/
def Obligations.WrittenCommandsDecode : Prop :=
  decode 25 [0x02#8, 0x01#8, 0x03#8, 0x10#8, 0x20#8, 0x30#8, 0x01#8] =
    .ok (.encodeFrame 0x01#8 0x03#8 [0x10#8, 0x20#8, 0x30#8], [0x01#8]) ∧
  decode 25 [0x01#8, 0xAA#8] = .ok (.feedByte 0xAA#8, []) ∧
  decode 25 [0x08#8, 0x05#8, 0xAA#8, 0x00#8, 0x00#8, 0x00#8, 0xBC#8, 0x04#8] =
    .ok (.feedBuf [0xAA#8, 0x00#8, 0x00#8, 0x00#8, 0xBC#8], [0x04#8]) ∧
  decode 25 [0x03#8, 0x04#8] = .ok (.txComplete, [0x04#8]) ∧
  decode 25 [0x04#8] = .ok (.readFrame, []) ∧
  decode 25 [0x05#8] = .ok (.consume, []) ∧
  decode 25 [0x06#8] = .ok (.reinit, []) ∧
  decode 25 [0x07#8] = .ok (.tick, []) ∧
  decode 25 [0x00#8] = .ok (.nop, []) ∧
  decode 25 [0xFF#8] = .ok (.reserved 0xFF#8, [])

/-- 30_encoding.md R101, first point: no step is taken for a reserved opcode, whatever stands after it. -/
def Obligations.ReservedOpcodeTakesNoStep : Prop :=
  (∀ (op : Byte) (s : State), exec (.reserved op) s = .refused (.reservedOpcode op)) ∧
  (∀ (s : State) (op : Byte) (rest : List Byte), 9 ≤ op.toNat → s.cmds = op :: rest →
    step s = .refused (.reservedOpcode op))

/-! ### The step -/

/-- A step performs the command at the head of the stream, with its bytes gone from the stream; a held command takes
no step and stays; an empty stream leaves everything as it is (the model's choice, notes/assumptions/4.md). -/
def Obligations.StepPerformsTheNextCommand : Prop :=
  (∀ (s : State) (i : Instr) (rest : List Byte), decode s.block.cfg.pMax s.cmds = .ok (i, rest) →
    (held i s.block = false → step s = exec i { s with cmds := rest }) ∧
    (held i s.block = true → step s = .next s)) ∧
  (∀ (i : Instr) (b : Block), held i b = true ↔ (∃ k len p, i = .encodeFrame k len p) ∧ b.txb = true) ∧
  (∀ s : State, s.cmds = [] → step s = .next s)

/-- A machine whose stream is a well-formed program is never refused, and stays such a machine: what remains of the
stream is the rest of the program. -/
def Obligations.WellFormedProgramIsNeverRefused : Prop :=
  ∀ (s : State) (is : List Instr), programOk s.block.cfg.pMax is → s.cmds = encodeProgram is →
    ∃ (t : State) (js : List Instr), step s = .next t ∧ js <:+ is ∧ programOk t.block.cfg.pMax js ∧
      t.cmds = encodeProgram js

/-! ### The transmit path -/

/-- 40_encode.md R130, R132: held while TXB = 1; else the fault, which writes nothing of the transmit path, when
L > P_MAX; else the frame in TXBUF, TXLEN, TXCHK, TXB and one Send event. -/
def Obligations.EncodeFollowsItsRule : Prop :=
  (∀ (k len : Byte) (p : List Byte), encode (.encodeFrame k len p) = 0x02#8 :: k :: len :: p) ∧
  ∀ (s : State) (k len : Byte) (p : List Byte),
    (s.block.txb = true → exec (.encodeFrame k len p) s = .next s) ∧
    (s.block.txb = false → s.block.cfg.pMax.val < len.toNat →
      exec (.encodeFrame k len p) s = .next { s with
        block := { s.block with
          lerr := 3#4, rxs := 0#3, idle := 0
          trace := s.block.trace ++ [.fault .payloadTooLarge .tx] }
        rets := s.rets ++ [.fault .payloadTooLarge] }) ∧
    (s.block.txb = false → len.toNat ≤ s.block.cfg.pMax.val → len.toNat ≤ p.length →
      s.block.txbuf.length = s.block.cfg.pMax.val + 5 →
      ∀ (c : Byte) (frame : List Byte), c = chk s.block.cfg (k :: len :: p.take len.toNat) →
        frame = s.block.cfg.pStart :: k :: len :: (p.take len.toNat ++ [c, s.block.cfg.pStop]) →
        exec (.encodeFrame k len p) s = .next { s with
          block := { s.block with
            txbuf := frame ++ s.block.txbuf.drop (len.toNat + 5)
            txlen := BitVec.ofNat 9 (len.toNat + 5), txchk := c, txb := true
            trace := s.block.trace ++ [.send frame] }
          rets := s.rets ++ [.ok] })

/-- 20_memory.md R71: the layout of TXBUF after a successful ENCODE, byte by byte; the bytes after the frame are as
before. -/
def Obligations.TransmitBufferLayout : Prop :=
  ∀ (s t : State) (k len : Byte) (p : List Byte), s.block.txb = false → len.toNat ≤ s.block.cfg.pMax.val →
    len.toNat ≤ p.length → s.block.txbuf.length = s.block.cfg.pMax.val + 5 →
    exec (.encodeFrame k len p) s = .next t →
      t.block.txbuf[0]? = some s.block.cfg.pStart ∧ t.block.txbuf[1]? = some k ∧ t.block.txbuf[2]? = some len ∧
      (∀ j, j < len.toNat → t.block.txbuf[3 + j]? = p[j]?) ∧
      t.block.txbuf[3 + len.toNat]? = some (chk s.block.cfg (k :: len :: p.take len.toNat)) ∧
      t.block.txbuf[4 + len.toNat]? = some s.block.cfg.pStop ∧
      (∀ j, 5 + len.toNat ≤ j → t.block.txbuf[j]? = s.block.txbuf[j]?) ∧
      t.block.txbuf.length = s.block.txbuf.length

/-- 40_encode.md R135: TX_COMPLETE clears TXB, has no effect where TXB is 0 already, and changes nothing else. -/
def Obligations.TxCompleteReleasesTheTransmitter : Prop :=
  encode .txComplete = [0x03#8] ∧
  ∀ s : State, exec .txComplete s = .next { s with
    block := { s.block with txb := false }, rets := s.rets ++ [.ok] }

/-- 10_state.md R44: TXBUF, TXLEN and TXCHK keep their values until the next successful ENCODE or REINIT. -/
def Obligations.RetainedFrameKeptUntilEncodeOrReinit : Prop :=
  ∀ (i : Instr) (s t : State), exec i s = .next t → i ≠ .reinit →
    (∀ k len p, i = .encodeFrame k len p → s.block.txb = true ∨ s.block.cfg.pMax.val < len.toNat) →
    t.block.txbuf = s.block.txbuf ∧ t.block.txlen = s.block.txlen ∧ t.block.txchk = s.block.txchk

/-- 10_state.md R39: what sets TXB and what clears it. -/
def Obligations.BusyFlagChangesOnlyByItsOperations : Prop :=
  ∀ (i : Instr) (s t : State), exec i s = .next t →
    (s.block.txb = false → t.block.txb = true →
      ∃ k len p, i = .encodeFrame k len p ∧ len.toNat ≤ s.block.cfg.pMax.val) ∧
    (s.block.txb = true → t.block.txb = false → i = .txComplete ∨ i = .reinit)

/-! ### The receive state machine -/

/-- 41_receive.md R150: FEED_BYTE is the row that RXS selects, zeroes IDLE, and raises MalformedState where the check
WF fails. -/
def Obligations.FeedByteIsTheSelectedRow : Prop :=
  (∀ x : Byte, encode (.feedByte x) = [0x01#8, x]) ∧
  ∀ (s : State) (x : Byte),
    exec (.feedByte x) s = exec (selectRow s.block.rxs x) s ∧
    (∃ t, exec (.feedByte x) s = .next t ∧ t.block.idle = 0) ∧
    (¬ receiveWf s.block → exec (.feedByte x) s = .next (s.afterRxFault .malformedState))

/-- 41_receive.md R151: FEED_BYTE in WaitStart. -/
def Obligations.FeedByteInWaitStart : Prop :=
  (∀ x : Byte, encode (.rxWaitStart x) = [0x01#8, x] ∧ (Instr.rxWaitStart x).rowCode = some 0#3) ∧
  ∀ (s : State) (x : Byte), s.block.rxs = 0#3 → ∀ i ∈ [Instr.feedByte x, .rxWaitStart x],
    (x = s.block.cfg.pStart → exec i s = .next { s with
      block := { s.block with idle := 0, cur := 0#8, rxs := 1#3 }, rets := s.rets ++ [.rx .incomplete] }) ∧
    (x ≠ s.block.cfg.pStart → exec i s = .next (s.afterRxFault .invalidStart))

/-- 41_receive.md R152: FEED_BYTE in GetKind; the default predicate accepts every kind. The clause that a predicate
which lists its kinds accepts exactly those is the model's choice, its form of P_KIND_OK (notes/assumptions/3.md), and
no sentence of the rule. -/
def Obligations.FeedByteInGetKind : Prop :=
  (∀ x : Byte, encode (.rxGetKind x) = [0x01#8, x] ∧ (Instr.rxGetKind x).rowCode = some 1#3) ∧
  (∀ (c : Config) (x : Byte), c.pKindOk = .acceptAll → kindOk c x = true) ∧
  (∀ (c : Config) (kinds : List Byte) (x : Byte), c.pKindOk = .acceptOnly kinds →
    (kindOk c x = true ↔ x ∈ kinds)) ∧
  ∀ (s : State) (x : Byte), s.block.rxs = 1#3 → ∀ i ∈ [Instr.feedByte x, .rxGetKind x],
    (kindOk s.block.cfg x = true → exec i s = .next { s with
      block := { s.block with idle := 0, pk := x, rxs := 2#3 }, rets := s.rets ++ [.rx .incomplete] }) ∧
    (kindOk s.block.cfg x = false → exec i s = .next (s.afterRxFault .unrecognizedKind))

/-- 41_receive.md R153: FEED_BYTE in GetLength; the bound is checked before any payload byte is written. -/
def Obligations.FeedByteInGetLength : Prop :=
  (∀ x : Byte, encode (.rxGetLength x) = [0x01#8, x] ∧ (Instr.rxGetLength x).rowCode = some 2#3) ∧
  ∀ (s : State) (x : Byte), s.block.rxs = 2#3 → ∀ i ∈ [Instr.feedByte x, .rxGetLength x],
    (x = 0#8 → exec i s = .next { s with
      block := { s.block with idle := 0, pl := 0#8, rxs := 4#3 }, rets := s.rets ++ [.rx .incomplete] }) ∧
    (x ≠ 0#8 → x.toNat ≤ s.block.cfg.pMax.val → exec i s = .next { s with
      block := { s.block with idle := 0, pl := x, rxs := 3#3 }, rets := s.rets ++ [.rx .incomplete] }) ∧
    (s.block.cfg.pMax.val < x.toNat → exec i s = .next (s.afterRxFault .payloadTooLarge))

/-- 41_receive.md R154: FEED_BYTE in GetPayload, in a state that passes the check WF. -/
def Obligations.FeedByteInGetPayload : Prop :=
  (∀ x : Byte, encode (.rxGetPayload x) = [0x01#8, x] ∧ (Instr.rxGetPayload x).rowCode = some 3#3) ∧
  ∀ (s : State) (x : Byte), s.block.rxs = 3#3 → s.block.pl.toNat ≤ s.block.cfg.pMax.val →
    s.block.cur.toNat < s.block.pl.toNat → ∀ i ∈ [Instr.feedByte x, .rxGetPayload x],
    (s.block.cur.toNat + 1 = s.block.pl.toNat → exec i s = .next { s with
      block := { s.block with
        idle := 0, pbuf := s.block.pbuf.set s.block.cur.toNat x, cur := s.block.cur + 1#8, rxs := 4#3 }
      rets := s.rets ++ [.rx .incomplete] }) ∧
    (s.block.cur.toNat + 1 < s.block.pl.toNat → exec i s = .next { s with
      block := { s.block with
        idle := 0, pbuf := s.block.pbuf.set s.block.cur.toNat x, cur := s.block.cur + 1#8, rxs := 3#3 }
      rets := s.rets ++ [.rx .incomplete] })

/-- 41_receive.md R155: FEED_BYTE in GetChecksum, in a state that passes the check WF. -/
def Obligations.FeedByteInGetChecksum : Prop :=
  (∀ x : Byte, encode (.rxGetChecksum x) = [0x01#8, x] ∧ (Instr.rxGetChecksum x).rowCode = some 4#3) ∧
  ∀ (s : State) (x : Byte), s.block.rxs = 4#3 → s.block.pl.toNat ≤ s.block.cfg.pMax.val →
    ∀ i ∈ [Instr.feedByte x, .rxGetChecksum x], exec i s = .next { s with
      block := { s.block with idle := 0, cchk := x, rxs := 5#3 }, rets := s.rets ++ [.rx .incomplete] }

/-- 41_receive.md R156: FEED_BYTE in GetStop, in a state that passes the check WF. -/
def Obligations.FeedByteInGetStop : Prop :=
  (∀ x : Byte, encode (.rxGetStop x) = [0x01#8, x] ∧ (Instr.rxGetStop x).rowCode = some 5#3) ∧
  ∀ (s : State) (x : Byte), s.block.rxs = 5#3 → s.block.pl.toNat ≤ s.block.cfg.pMax.val →
    Memory.wf s.block = true → ∀ i ∈ [Instr.feedByte x, .rxGetStop x],
    (x ≠ s.block.cfg.pStop → exec i s = .next (s.afterRxFault .invalidStop)) ∧
    ∀ (payload : List Byte), payload = s.block.pbuf.take s.block.pl.toNat →
      (x = s.block.cfg.pStop → chk s.block.cfg (s.block.pk :: s.block.pl :: payload) = s.block.cchk →
        exec i s = .next { s with
          block := { s.block with
            idle := 0, dk := s.block.pk, dl := s.block.pl
            dbuf := payload ++ s.block.dbuf.drop s.block.pl.toNat
            prdy := true, rxs := 0#3
            trace := s.block.trace ++ [.frameReady s.block.pk s.block.pl payload] }
          rets := s.rets ++ [.rx .frameReady] }) ∧
      (x = s.block.cfg.pStop → chk s.block.cfg (s.block.pk :: s.block.pl :: payload) ≠ s.block.cchk →
        exec i s = .next (s.afterRxFault .checksumMismatch))

/-- 41_receive.md R157: FEED_BYTE in a malformed state, for the command and for the row that RXS selects. -/
def Obligations.FeedByteInMalformedState : Prop :=
  (∀ x : Byte, encode (.rxIllegal6 x) = [0x01#8, x] ∧ (Instr.rxIllegal6 x).rowCode = some 6#3 ∧
    encode (.rxIllegal7 x) = [0x01#8, x] ∧ (Instr.rxIllegal7 x).rowCode = some 7#3) ∧
  ∀ (s : State) (x : Byte), ¬ receiveWf s.block → ∀ i ∈ [Instr.feedByte x, selectRow s.block.rxs x],
    exec i s = .next (s.afterRxFault .malformedState)

/-- 30_encoding.md R96: with RXS = 6 or 7 the rows RX.Illegal6 and RX.Illegal7 raise MalformedState. -/
def Obligations.IllegalRowsRaiseMalformedState : Prop :=
  ∀ (s : State) (x : Byte),
    (s.block.rxs = 6#3 → exec (.rxIllegal6 x) s = .next (s.afterRxFault .malformedState)) ∧
    (s.block.rxs = 7#3 → exec (.rxIllegal7 x) s = .next (s.afterRxFault .malformedState))

/-- The model's choice, notes/assumptions/9.md: a row that RXS does not select is not enabled and takes no step. -/
def Obligations.UnselectedRowTakesNoStep : Prop :=
  ∀ (s : State) (i : Instr) (c : RxsCode), i.rowCode = some c → s.block.rxs ≠ c → exec i s = .next s

/-- 41_receive.md R158: exactly one outcome; Incomplete with no event; FrameReady with its event; Fault(code) with
exactly one Fault event of that code and source RX. -/
def Obligations.FeedByteOutcomeContract : Prop :=
  ∀ (s : State) (x : Byte), ∃ (t : State) (o : RxOutcome), exec (.feedByte x) s = .next t ∧
    t.rets = s.rets ++ [.rx o] ∧ t.cmds = s.cmds ∧
    (o = .incomplete → t.block.trace = s.block.trace) ∧
    (o = .frameReady → s.block.rxs = 5#3 ∧ x = s.block.cfg.pStop ∧ recomputedChecksum s.block = s.block.cchk ∧
      t.block.trace = s.block.trace ++ [.frameReady t.block.dk t.block.dl (s.block.pbuf.take t.block.dl.toNat)]) ∧
    (∀ code, o = .fault code → t.block.trace = s.block.trace ++ [.fault code .rx] ∧ t.block.lerr = code.code ∧
      t.block.rxs = 0#3)

/-- 10_state.md R36: a FEED_BYTE writes PBUF only at index CUR, only in GetPayload, and only when
CUR < PL <= P_MAX; it never makes the array longer. -/
def Obligations.PayloadWritesStayInBounds : Prop :=
  ∀ (s t : State) (x : Byte), exec (.feedByte x) s = .next t →
    t.block.pbuf.length = s.block.pbuf.length ∧
    ∀ j : Nat, t.block.pbuf[j]? ≠ s.block.pbuf[j]? →
      j = s.block.cur.toNat ∧ s.block.rxs = 3#3 ∧ s.block.cur.toNat < s.block.pl.toNat ∧
        s.block.pl.toNat ≤ s.block.cfg.pMax.val

/-- 41_receive.md R161: the loop of FEED_BUF, one FEED_BYTE at a time, with no other agent's step between. It stops
at the first FrameReady and not at a fault. -/
def Obligations.FeedBufIsTheLoop : Prop :=
  (∀ bs : List Byte, encode (.feedBuf bs) = 0x08#8 :: BitVec.ofNat 8 bs.length :: bs) ∧
  (∀ s : State, exec (.feedBuf []) s = .next { s with rets := s.rets ++ [.bulk .incomplete 0] }) ∧
  (∀ (s : State) (x : Byte) (xs : List Byte) (b : Block) (o : RxOutcome),
    exec (.feedByte x) s = .next { s with block := b, rets := s.rets ++ [.rx o] } →
      (o = .frameReady → exec (.feedBuf (x :: xs)) s = .next { s with
        block := b, rets := s.rets ++ [.bulk .frameReady 1] }) ∧
      (o ≠ .frameReady → ∀ (c : Block) (o' : RxOutcome) (n : Nat),
        exec (.feedBuf xs) { s with block := b } = .next { s with
          block := c, rets := s.rets ++ [.bulk o' n] } →
        exec (.feedBuf (x :: xs)) s = .next { s with
          block := c, rets := s.rets ++ [.bulk o' (n + 1)] }))

/-- 41_receive.md R161: FEED_BUF always completes, with (FrameReady, i) or (Incomplete, n), and touches no transmit
register. That no step of another agent falls between its bytes is the model's choice (notes/assumptions/10.md). -/
def Obligations.FeedBufCompletes : Prop :=
  ∀ (s : State) (bs : List Byte), ∃ (b : Block) (o : RxOutcome) (n : Nat),
    exec (.feedBuf bs) s = .next { s with block := b, rets := s.rets ++ [.bulk o n] } ∧
    (o = .frameReady ∧ 0 < n ∧ n ≤ bs.length ∧ b.prdy = true ∨ o = .incomplete ∧ n = bs.length) ∧
    b.cfg = s.block.cfg ∧ b.txb = s.block.txb ∧ b.txbuf = s.block.txbuf ∧ b.txlen = s.block.txlen ∧
    b.txchk = s.block.txchk

/-- 40_encode.md R133: the bytes of a Send event, fed to a receiver in WaitStart with the same configuration, give
L + 4 times Incomplete and then FrameReady, and READ_FRAME returns the frame that was encoded. -/
def Obligations.RoundTripDeliversTheEncodedFrame : Prop :=
  ∀ (s r : State) (k len : Byte) (p : List Byte), s.block.txb = false → Memory.wf s.block = true →
    len.toNat ≤ s.block.cfg.pMax.val → len.toNat ≤ p.length → r.block.cfg = s.block.cfg →
    kindOk r.block.cfg k = true → Memory.wf r.block = true → r.block.rxs = 0#3 →
    ∃ (t u : State) (bytes : List Byte), exec (.encodeFrame k len p) s = .next t ∧
      t.block.trace = s.block.trace ++ [.send bytes] ∧ bytes.length = len.toNat + 5 ∧
      execAll (bytes.map .feedByte) r = .next u ∧
      u.rets = r.rets ++ (List.replicate (len.toNat + 4) (.rx .incomplete) ++ [.rx .frameReady]) ∧
      u.block.trace = r.block.trace ++ [.frameReady k len (p.take len.toNat)] ∧
      exec .readFrame u = .next { u with rets := u.rets ++ [.frame k len (p.take len.toNat)] }

/-- 41_receive.md R162: bytes other than P_START in WaitStart give one InvalidStart each and change nothing but LERR,
IDLE and the trace; a well-formed frame fed next gives FrameReady on its stop byte. -/
def Obligations.GarbageIsDiscardedBeforeAFrame : Prop :=
  ∀ (r : State) (garbage : List Byte), r.block.rxs = 0#3 → (∀ x ∈ garbage, x ≠ r.block.cfg.pStart) →
    (garbage ≠ [] → execAll (garbage.map .feedByte) r = .next { r with
      block := { r.block with
        lerr := 1#4, idle := 0
        trace := r.block.trace ++ List.replicate garbage.length (.fault .invalidStart .rx) }
      rets := r.rets ++ List.replicate garbage.length (.rx (.fault .invalidStart)) }) ∧
    ∀ (k len : Byte) (p : List Byte), kindOk r.block.cfg k = true → len.toNat ≤ r.block.cfg.pMax.val →
      p.length = len.toNat → Memory.wf r.block = true →
      ∃ u, execAll ((garbage ++ frameOf r.block.cfg k len p).map .feedByte) r = .next u ∧
        u.rets = r.rets ++ (List.replicate garbage.length (.rx (.fault .invalidStart)) ++
          (List.replicate (len.toNat + 4) (.rx .incomplete) ++ [.rx .frameReady])) ∧
        exec .readFrame u = .next { u with rets := u.rets ++ [.frame k len p] }

/-- 41_receive.md R163: a frame with one payload bit flipped gives ChecksumMismatch, with the delivered frame and PRDY
as before, exactly when the checksums differ, and FrameReady with the changed payload otherwise; with the XOR
checksum they always differ, so that the other case is one of an external checksum function alone. -/
def Obligations.FlippedPayloadBitIsSeenByTheChecksum : Prop :=
  ∀ (r : State) (k len : Byte) (p q : List Byte) (j bit : Nat) (old : Byte), r.block.rxs = 0#3 →
    Memory.wf r.block = true → kindOk r.block.cfg k = true → len.toNat ≤ r.block.cfg.pMax.val →
    p.length = len.toNat → p[j]? = some old → bit < 8 → q = p.set j (old ^^^ BitVec.twoPow 8 bit) →
    ∃ (u : State) (o : RxOutcome),
      execAll ((frameBytes r.block.cfg k len q (chk r.block.cfg (k :: len :: p))).map .feedByte) r = .next u ∧
      u.rets = r.rets ++ (List.replicate (len.toNat + 4) (.rx .incomplete) ++ [.rx o]) ∧
      (chk r.block.cfg (k :: len :: q) ≠ chk r.block.cfg (k :: len :: p) →
        o = .fault .checksumMismatch ∧ u.block.prdy = r.block.prdy ∧ u.block.dk = r.block.dk ∧
          u.block.dl = r.block.dl ∧ u.block.dbuf = r.block.dbuf) ∧
      (chk r.block.cfg (k :: len :: q) = chk r.block.cfg (k :: len :: p) →
        o = .frameReady ∧ exec .readFrame u = .next { u with rets := u.rets ++ [.frame k len q] }) ∧
      (r.block.cfg.pChk = .xorAll → chk r.block.cfg (k :: len :: q) ≠ chk r.block.cfg (k :: len :: p))

/-- 41_receive.md R165: with P_TIMEOUT = 0, operations that feed no byte, do not reinitialize and raise no fault keep
the partial frame and the receive state, however many there are. -/
def Obligations.StalledFrameIsHeld : Prop :=
  ∀ (is : List Instr) (s t : State), s.block.cfg.pTimeout = 0 → execAll is s = .next t →
    (∀ i ∈ is, i = .nop ∨ i = .txComplete ∨ i = .readFrame ∨ i = .consume ∨ i = .tick ∨
      ∃ k len p, i = .encodeFrame k len p ∧ len.toNat ≤ s.block.cfg.pMax.val) →
    t.block.rxs = s.block.rxs ∧ t.block.cur = s.block.cur ∧ t.block.pk = s.block.pk ∧
    t.block.pl = s.block.pl ∧ t.block.pbuf = s.block.pbuf ∧ t.block.cchk = s.block.cchk

/-! ### The host's operations and the timer -/

/-- 42_host_ops.md R190: READ_FRAME returns the delivered frame when PRDY = 1 and NotReady otherwise, and writes no
register. -/
def Obligations.ReadFrameReturnsTheDeliveredFrame : Prop :=
  encode .readFrame = [0x04#8] ∧
  ∀ s : State,
    (s.block.prdy = true → exec .readFrame s = .next { s with
      rets := s.rets ++ [.frame s.block.dk s.block.dl (s.block.dbuf.take s.block.dl.toNat)] }) ∧
    (s.block.prdy = false → exec .readFrame s = .next { s with rets := s.rets ++ [.notReady] })

/-- 42_host_ops.md R191: CONSUME clears PRDY, or has no effect and returns NotReady. -/
def Obligations.ConsumeReleasesTheDeliveredFrame : Prop :=
  encode .consume = [0x05#8] ∧
  ∀ s : State,
    (s.block.prdy = true → exec .consume s = .next { s with
      block := { s.block with prdy := false }, rets := s.rets ++ [.ok] }) ∧
    (s.block.prdy = false → exec .consume s = .next { s with rets := s.rets ++ [.notReady] })

/-- 42_host_ops.md R192: REINIT's writes; the configuration and the trace are kept and no event is emitted. -/
def Obligations.ReinitWritesEveryRegister : Prop :=
  encode .reinit = [0x06#8] ∧
  ∀ s : State, exec .reinit s = .next { s with
    block := { s.block with
      rxs := 0#3, cur := 0#8, pk := 0#8, pl := 0#8
      pbuf := List.replicate s.block.cfg.pMax.val 0#8, cchk := 0#8
      prdy := false, dk := 0#8, dl := 0#8, dbuf := List.replicate s.block.cfg.pMax.val 0#8
      lerr := 0#4
      txb := false, txbuf := List.replicate (s.block.cfg.pMax.val + 5) 0#8, txlen := 0#9, txchk := 0#8
      idle := 0 }
    rets := s.rets ++ [.ok] }

/-- 42_host_ops.md R193: TICK with the timeout off, in WaitStart, below the threshold, and at it. -/
def Obligations.TickCountsAndTimesOut : Prop :=
  encode .tick = [0x07#8] ∧
  ∀ s : State,
    (s.block.cfg.pTimeout = 0 → exec .tick s = .next { s with rets := s.rets ++ [.ok] }) ∧
    (s.block.rxs = 0#3 → exec .tick s = .next { s with rets := s.rets ++ [.ok] }) ∧
    (s.block.cfg.pTimeout ≠ 0 → s.block.rxs ≠ 0#3 → s.block.idle + 1 < s.block.cfg.pTimeout →
      exec .tick s = .next { s with
        block := { s.block with idle := s.block.idle + 1 }, rets := s.rets ++ [.ok] }) ∧
    (s.block.cfg.pTimeout ≠ 0 → s.block.rxs ≠ 0#3 → s.block.cfg.pTimeout ≤ s.block.idle + 1 →
      exec .tick s = .next { s with
        block := { s.block with
          lerr := 9#4, rxs := 0#3, idle := 0, trace := s.block.trace ++ [.fault .timeout .tmr] }
        rets := s.rets ++ [.ok] })

/-- 42_host_ops.md R194: NOP writes no state and emits no event, and neither does a cycle with no request. -/
def Obligations.NopChangesNothing : Prop :=
  encode .nop = [0x00#8] ∧ (∀ b : Block, cycleBlock Inputs.quiet b = b) ∧
  ∀ s : State, exec .nop s = .next { s with rets := s.rets ++ [.ok] }

/-- 20_memory.md R78: READ_FRAME, CONSUME, TX_COMPLETE, REINIT and NOP leave the same block state the second time as
the first. -/
def Obligations.RepeatedHostOperationIsIdempotent : Prop :=
  ∀ i ∈ [Instr.readFrame, .consume, .txComplete, .reinit, .nop], ∀ s t u : State,
    exec i s = .next t → exec i t = .next u → u.block = t.block

/-- 10_state.md R38: PRDY is set only at a FrameReady transition, and cleared only by CONSUME and REINIT. -/
def Obligations.PayloadReadyChangesOnlyByItsOperations : Prop :=
  ∀ (i : Instr) (s t : State), exec i s = .next t →
    (s.block.prdy = false → t.block.prdy = true →
      ∃ k len p, Event.frameReady k len p ∈ t.block.trace.drop s.block.trace.length) ∧
    (s.block.prdy = true → t.block.prdy = false → i = .consume ∨ i = .reinit)

/-- 10_state.md R43: DK, DL and DBUF change only at a FrameReady transition or by REINIT. -/
def Obligations.DeliveredFrameChangesOnlyAtFrameReady : Prop :=
  ∀ (i : Instr) (s t : State), exec i s = .next t → i ≠ .reinit →
    (∀ k len p, Event.frameReady k len p ∉ t.block.trace.drop s.block.trace.length) →
    t.block.dk = s.block.dk ∧ t.block.dl = s.block.dl ∧ t.block.dbuf = s.block.dbuf

/-! ### Faults, events and the configuration -/

/-- 60_exceptions.md R221: the Error Manager action. -/
def Obligations.ErrorManagerAction : Prop :=
  ∀ (code : FaultKind) (src : FaultSource) (b : Block), raiseFault code src b =
    { b with trace := b.trace ++ [.fault code src], lerr := code.code, rxs := 0#3, idle := 0 }

/-- 60_exceptions.md R222, R225, R226: an operation other than FEED_BUF raises at most one fault. If it raises one,
LERR has its code, RXS is WaitStart and IDLE is 0, and the partial frame's buffer, PRDY, the delivered frame and the
transmit state are as before; if none, LERR is as before unless REINIT cleared it. -/
def Obligations.AtMostOneFaultPerOperation : Prop :=
  ∀ (i : Instr) (s t : State), exec i s = .next t → (∀ bs, i ≠ .feedBuf bs) →
    (∃ (code : FaultKind) (src : FaultSource), t.block =
      { s.block with
        trace := s.block.trace ++ [.fault code src], lerr := code.code, rxs := 0#3, idle := 0 }) ∨
    ((∀ code src, Event.fault code src ∉ t.block.trace.drop s.block.trace.length) ∧
      (t.block.lerr = s.block.lerr ∨ i = .reinit ∧ t.block.lerr = 0#4))

/-- 30_encoding.md R98, 60_exceptions.md R218, R219, 10_state.md R51: every step keeps the trace free of events the
spec does not list (no TransmitBusy, no ReceiveBusy, Timeout from TMR only, a FrameReady whose payload has its
length), LERR at None or the code of a fault the block raises, and the byte arrays at their lengths. -/
def Obligations.StepEmitsOnlyListedEvents : Prop :=
  ∀ s t : State, Memory.wf s.block = true → (∀ e ∈ s.block.trace, e.legal = true) → lerrLegal s.block →
    step s = .next t →
      Memory.wf t.block = true ∧ (∀ e ∈ t.block.trace, e.legal = true) ∧ lerrLegal t.block

/-- 10_state.md R51: the trace is append-only, and the results returned are too. -/
def Obligations.TraceOnlyGrows : Prop :=
  ∀ (i : Instr) (s t : State), exec i s = .next t → s.block.trace <+: t.block.trace ∧ s.rets <+: t.rets

/-- 10_state.md R31: no step changes the configuration. -/
def Obligations.ConfigurationNeverChanges : Prop :=
  ∀ s t : State, step s = .next t → t.block.cfg = s.block.cfg

/-! ### Reset and invariants -/

/-- 10_state.md R49, 70_reset_and_hazards.md R252: after construction, for every configuration, and after REINIT every
register holds its reset value; construction starts an empty trace and REINIT keeps it. -/
def Obligations.ConstructionAndReinitAgree : Prop :=
  (∀ c : Config, (Block.construct c).cfg = c ∧ (Block.construct c).trace = [] ∧
    ∀ b : Block, b = Block.construct c →
      b.rxs = 0#3 ∧ b.cur = 0#8 ∧ b.pk = 0#8 ∧ b.pl = 0#8 ∧ b.pbuf = List.replicate c.pMax.val 0#8 ∧
      b.cchk = 0#8 ∧ b.prdy = false ∧ b.dk = 0#8 ∧ b.dl = 0#8 ∧ b.dbuf = List.replicate c.pMax.val 0#8 ∧
      b.lerr = 0#4 ∧ b.txb = false ∧ b.txbuf = List.replicate (c.pMax.val + 5) 0#8 ∧ b.txlen = 0#9 ∧
      b.txchk = 0#8 ∧ b.idle = 0) ∧
  (∀ s : State, exec .reinit s = .next { s with
    block := { Block.construct s.block.cfg with trace := s.block.trace }, rets := s.rets ++ [.ok] })

/-- The invariant holds after construction with every configuration. -/
def Obligations.InvariantHoldsAfterConstruction : Prop :=
  ∀ c : Config, BlockInv (Block.construct c)

/-- 10_state.md R50, R34, R30: every step keeps the invariant, and so does every operation. -/
def Obligations.InvariantIsKeptByEveryStep : Prop :=
  (∀ s t : State, BlockInv s.block → step s = .next t → BlockInv t.block) ∧
  (∀ (i : Instr) (s t : State), BlockInv s.block → exec i s = .next t → BlockInv t.block)

/-- 10_state.md R50: every schedule of the four agents keeps the invariant, also between the bytes of a FEED_BUF. -/
def Obligations.InvariantIsKeptByEverySchedule : Prop :=
  ∀ (sched : List Agent) (y : System), BlockInv y.state.block → BlockInv (runSchedule sched y).state.block

/-- 10_state.md R30: every operation keeps the byte arrays at their lengths, from any state where they have them. -/
def Obligations.ArraysKeepTheirLengths : Prop :=
  ∀ (i : Instr) (s t : State), Memory.wf s.block = true → exec i s = .next t → Memory.wf t.block = true

/-! ### The two paths, the agents, the instances and the clock -/

/-- 20_memory.md R80: FEED_BYTE, FEED_BUF and TICK read no transmit register and write none. -/
def Obligations.ReceiveReadsNoTransmitRegister : Prop :=
  ∀ (s t : State) (c : Block) (i : Instr), (i = .tick ∨ (∃ x, i = .feedByte x) ∨ ∃ bs, i = .feedBuf bs) →
    exec i s = .next t →
    exec i (s.withBlock (s.block.withTx c)) = .next (t.withBlock (t.block.withTx c))

/-- 20_memory.md R80: ENCODE and TX_COMPLETE read no receive register. Other contents of the registers that they do not
write stay as they are; other contents of RXS, IDLE and LERR stay where no fault is raised, and are overwritten all
the same where one is. -/
def Obligations.TransmitReadsNoReceiveRegister : Prop :=
  ∀ (s t : State) (c : Block) (i : Instr), (i = .txComplete ∨ ∃ k len p, i = .encodeFrame k len p) →
    exec i s = .next t →
    exec i (s.withBlock (s.block.withRx c)) = .next (t.withBlock (t.block.withRx c)) ∧
    ∀ other : State, other = s.withBlock { s.block with rxs := c.rxs, idle := c.idle, lerr := c.lerr } →
      (t.block.trace.drop s.block.trace.length = [.fault .payloadTooLarge .tx] ∧ exec i other = .next t) ∨
      ((∀ code src, Event.fault code src ∉ t.block.trace.drop s.block.trace.length) ∧
        exec i other = .next (t.withBlock { t.block with rxs := c.rxs, idle := c.idle, lerr := c.lerr }))

/-- 20_memory.md R83, 40_encode.md R131, R137, 70_reset_and_hazards.md R267: a Host with a held ENCODE waits, and the
frame in flight is not touched, under every schedule in which the Transport does not move. -/
def Obligations.HeldEncodeWaitsForTheTransport : Prop :=
  ∀ (sched : List Agent) (y : System) (k len : Byte) (p : List Byte) (ops : List Instr), y.bulk = none →
    y.hostOps = .encodeFrame k len p :: ops → y.state.block.txb = true → (∀ a ∈ sched, a ≠ .transport) →
    ∀ z, z = runSchedule sched y →
      z.hostOps = y.hostOps ∧ z.bulk = none ∧ z.completes = y.completes ∧ z.state.block.txb = true ∧
      z.state.block.txbuf = y.state.block.txbuf ∧ z.state.block.txlen = y.state.block.txlen ∧
      z.state.block.txchk = y.state.block.txchk

/-- 40_encode.md R131, 95_test_vectors.md E11: after the Transport's TX_COMPLETE the held ENCODE proceeds. -/
def Obligations.HeldEncodeProceedsAfterCompletion : Prop :=
  ∀ (y : System) (k len : Byte) (p : List Byte) (ops : List Instr) (n : Nat), y.bulk = none →
    y.hostOps = .encodeFrame k len p :: ops → y.state.block.txb = true → y.completes = n + 1 →
    ∃ t, exec (.encodeFrame k len p) { y.state with
        block := { y.state.block with txb := false }, rets := y.state.rets ++ [.ok] } = .next t ∧
      runSchedule [.host, .transport, .host] y = { y with state := t, hostOps := ops, completes := n }

/-- 41_receive.md R161, 20_memory.md R77: FEED_BUF performed byte by byte by the Host, with no other agent moving
between, gives what the one operation FEED_BUF gives (notes/assumptions/10.md). How many turns that takes is the
model's choice too (notes/assumptions/13.md). -/
def Obligations.FeedBufIsItsFeedBytes : Prop :=
  ∀ (y : System) (bytes : List Byte) (ops : List Instr), y.bulk = none → y.hostOps = .feedBuf bytes :: ops →
    ∃ (n : Nat) (t : State), 0 < n ∧ n ≤ max 1 bytes.length ∧ exec (.feedBuf bytes) y.state = .next t ∧
      runSchedule (List.replicate n .host) y = { y with state := t, hostOps := ops }

/-- 20_memory.md R86: an operation on one instance of a system is that operation on its state alone, whatever the
others hold; it changes no other instance, and operations on different instances commute. -/
def Obligations.InstancesAreIndependent : Prop :=
  ∀ (m n : Nat) (i j : Instr) (instances : List State), m ≠ n →
    (∀ s t, instances[n]? = some s → exec j s = .next t →
      performAt n j instances = instances.take n ++ t :: instances.drop (n + 1)) ∧
    (performAt n j instances)[m]? = instances[m]? ∧
    performAt m i (performAt n j instances) = performAt n j (performAt m i instances)

/-- 20_memory.md R81: a cycle gives the result of performing the requested operations one after another, in the
order of the rule, REINIT alone when present; a held ENCODE changes nothing (notes/assumptions/7.md). -/
def Obligations.ClockCycleIsTheOrderedSequence : Prop :=
  ∀ (inp : Inputs) (s : State), inp.rst = false →
    ∃ t, execAll (requestedOps inp s.block) s = .next t ∧ t.block = cycleBlock inp s.block

/-- 95_test_vectors.md H13, H14, H15 (20_memory.md R81): READ_FRAME comes before CONSUME, CONSUME before FEED_BYTE, and
TX_COMPLETE before ENCODE. -/
def Obligations.SameCycleOrderOfRequests : Prop :=
  ∀ (inp : Inputs) (b : Block), inp.rst = false → inp.reinit = false →
    (inp.rdReq = true → b.prdy = true → (cycleOutputs inp b).rdOk = true ∧ (cycleOutputs inp b).rdKind = b.dk ∧
      (cycleOutputs inp b).rdLen = b.dl ∧ (cycleOutputs inp b).rdPayload = packBytes b.dbuf) ∧
    (inp.consume = true → inp.rxValid = false → (cycleBlock inp b).prdy = false) ∧
    (inp.rxValid = true → (cycleOutputs inp b).frameReady = true → (cycleBlock inp b).prdy = true ∧
      (cycleOutputs inp b).payloadReady = true) ∧
    (inp.txDone = true → inp.txReq = true → (cycleOutputs inp b).txAck = true)

/-- 70_reset_and_hazards.md R250: while rst = 1 every register is at its reset value, no operation is performed and
no event is emitted. -/
def Obligations.ResetCyclePerformsNothing : Prop :=
  ∀ (inp : Inputs) (b : Block), inp.rst = true →
    cycleBlock inp b = Block.construct b.cfg ∧ cycleOutputs inp b = statusOutputs (Block.construct b.cfg)

/-- 30_encoding.md R102: in every cycle the status ports show the registers they are named after, at the end of the
cycle (notes/assumptions/14.md), and the ports of an operation that is not performed are 0; and what the ports show in
a cycle with one request, where an ENCODE request with TXB = 1 is not acknowledged. -/
def Obligations.PortsShowTheResultOfARequest : Prop :=
  (∀ (inp : Inputs) (b c : Block) (o : Outputs), c = cycleBlock inp b → o = cycleOutputs inp b →
    (o.sendBuf = packBytes c.txbuf ∧ o.sendLen = c.txlen ∧ o.txChk = c.txchk ∧ o.txBusy = c.txb ∧
      o.payloadReady = c.prdy ∧ o.lastError = c.lerr) ∧
    (inp.rst = true ∨ inp.reinit = true ∨ inp.rxValid = false →
      o.rxOutcome = 0#2 ∧ o.rxFault = 0#4 ∧ o.frameReady = false ∧ o.fltCodeRx = 0#4) ∧
    (inp.rst = true ∨ inp.reinit = true ∨ inp.txReq = false →
      o.txAck = false ∧ o.txResult = 0#2 ∧ o.txFault = 0#4 ∧ o.sendValid = false ∧ o.fltCodeTx = 0#4) ∧
    (inp.rst = true ∨ inp.reinit = true ∨ inp.tick = false → o.fltCodeTmr = 0#4) ∧
    (inp.rst = true ∨ inp.reinit = true ∨ inp.rdReq = false →
      o.rdOk = false ∧ o.rdKind = 0#8 ∧ o.rdLen = 0#8 ∧ o.rdPayload = 0) ∧
    (inp.rst = true ∨ inp.reinit = true ∨ inp.rxValid = false ∧ inp.txReq = false ∧ inp.tick = false →
      o.fltValid = 0#3)) ∧
  (∀ (bytes : List Byte) (j : Nat) (x : Byte), bytes[j]? = some x →
    packBytes bytes / 256 ^ j % 256 = x.toNat) ∧
  (∀ (s t : State) (x : Byte) (o : RxOutcome) (inp : Inputs),
    inp = { Inputs.quiet with rxValid := true, rxByte := x } → exec (.feedByte x) s = .next t →
    t.rets = s.rets ++ [.rx o] →
      cycleOutputs inp s.block = { statusOutputs t.block with
        rxOutcome := o.code, rxFault := o.faultCode, frameReady := decide (o = .frameReady)
        fltValid := if o.faultCode = 0#4 then 0#3 else 1#3, fltCodeRx := o.faultCode }) ∧
  (∀ (s t : State) (k len : Byte) (p : List Byte) (r : Ret) (inp : Inputs),
    inp = { Inputs.quiet with txReq := true, txKind := k, txLen := len, txPayload := packBytes p } →
    p.length = s.block.cfg.pMax.val →
      (s.block.txb = true → cycleOutputs inp s.block = statusOutputs s.block) ∧
      (s.block.txb = false → exec (.encodeFrame k len p) s = .next t → t.rets = s.rets ++ [r] →
        cycleOutputs inp s.block = { statusOutputs t.block with
          txAck := true, txResult := r.txResult, txFault := r.txFault, sendValid := decide (r = .ok)
          fltValid := if r.txFault = 0#4 then 0#3 else 2#3, fltCodeTx := r.txFault })) ∧
  (∀ (s t : State) (inp : Inputs), inp = { Inputs.quiet with tick := true } → exec .tick s = .next t →
    (t.block.trace = s.block.trace → cycleOutputs inp s.block = statusOutputs t.block) ∧
    (t.block.trace ≠ s.block.trace → cycleOutputs inp s.block = { statusOutputs t.block with
      fltValid := 4#3, fltCodeTmr := 9#4 })) ∧
  (∀ (b : Block) (inp : Inputs), inp = { Inputs.quiet with rdReq := true } →
    (b.prdy = true → cycleOutputs inp b = { statusOutputs b with
      rdOk := true, rdKind := b.dk, rdLen := b.dl, rdPayload := packBytes b.dbuf }) ∧
    (b.prdy = false → cycleOutputs inp b = statusOutputs b))

/-- 30_encoding.md R96, R97, R98, R99: the encodings of the receive states, the outcomes, the fault codes, the fault
sources and the results of ENCODE. -/
def Obligations.CodesAreThoseOfTheTables : Prop :=
  [RxState.waitStart, .getKind, .getLength, .getPayload, .getChecksum, .getStop].map RxState.code =
    [0#3, 1#3, 2#3, 3#3, 4#3, 5#3] ∧
  RxState.ofCode 6#3 = none ∧ RxState.ofCode 7#3 = none ∧ (∀ st : RxState, RxState.ofCode st.code = some st) ∧
  [FaultKind.invalidStart, .unrecognizedKind, .payloadTooLarge, .checksumMismatch, .invalidStop, .malformedState,
    .transmitBusy, .receiveBusy, .timeout].map FaultKind.code =
    [1#4, 2#4, 3#4, 4#4, 5#4, 6#4, 7#4, 8#4, 9#4] ∧
  [FaultSource.rx, .tx, .tmr].map FaultSource.code = [0#2, 1#2, 2#2] ∧
  RxOutcome.incomplete.code = 0b00#2 ∧ RxOutcome.frameReady.code = 0b01#2 ∧
  (∀ k : FaultKind, (RxOutcome.fault k).code = 0b10#2 ∧ (RxOutcome.fault k).faultCode = k.code) ∧
  RxOutcome.incomplete.faultCode = 0#4 ∧ RxOutcome.frameReady.faultCode = 0#4 ∧
  Ret.ok.txResult = 0b00#2 ∧ Ret.ok.txFault = 0#4 ∧
  (Ret.fault .payloadTooLarge).txResult = 0b10#2 ∧ (Ret.fault .payloadTooLarge).txFault = 3#4
end

