-- ==== Sys2Proof/Laws/State.lean ====
section
/-! SUPPORT. What each shared update of the block's state does to each field: one lemma per field per update, true by
unfolding, so that no later proof opens a record update. -/

namespace Sys2Proof.Machine

/-! ### emit -/

@[simp] theorem emit_cfg (e : Event) (b : Block) : (emit e b).cfg = b.cfg := rfl
@[simp] theorem emit_rxs (e : Event) (b : Block) : (emit e b).rxs = b.rxs := rfl
@[simp] theorem emit_cur (e : Event) (b : Block) : (emit e b).cur = b.cur := rfl
@[simp] theorem emit_pk (e : Event) (b : Block) : (emit e b).pk = b.pk := rfl
@[simp] theorem emit_pl (e : Event) (b : Block) : (emit e b).pl = b.pl := rfl
@[simp] theorem emit_pbuf (e : Event) (b : Block) : (emit e b).pbuf = b.pbuf := rfl
@[simp] theorem emit_cchk (e : Event) (b : Block) : (emit e b).cchk = b.cchk := rfl
@[simp] theorem emit_prdy (e : Event) (b : Block) : (emit e b).prdy = b.prdy := rfl
@[simp] theorem emit_dk (e : Event) (b : Block) : (emit e b).dk = b.dk := rfl
@[simp] theorem emit_dl (e : Event) (b : Block) : (emit e b).dl = b.dl := rfl
@[simp] theorem emit_dbuf (e : Event) (b : Block) : (emit e b).dbuf = b.dbuf := rfl
@[simp] theorem emit_lerr (e : Event) (b : Block) : (emit e b).lerr = b.lerr := rfl
@[simp] theorem emit_txb (e : Event) (b : Block) : (emit e b).txb = b.txb := rfl
@[simp] theorem emit_txbuf (e : Event) (b : Block) : (emit e b).txbuf = b.txbuf := rfl
@[simp] theorem emit_txlen (e : Event) (b : Block) : (emit e b).txlen = b.txlen := rfl
@[simp] theorem emit_txchk (e : Event) (b : Block) : (emit e b).txchk = b.txchk := rfl
@[simp] theorem emit_idle (e : Event) (b : Block) : (emit e b).idle = b.idle := rfl
@[simp] theorem emit_trace (e : Event) (b : Block) : (emit e b).trace = b.trace ++ [e] := rfl

/-! ### clearIdle -/

@[simp] theorem clearIdle_cfg  (b : Block) : (clearIdle b).cfg = b.cfg := rfl
@[simp] theorem clearIdle_rxs  (b : Block) : (clearIdle b).rxs = b.rxs := rfl
@[simp] theorem clearIdle_cur  (b : Block) : (clearIdle b).cur = b.cur := rfl
@[simp] theorem clearIdle_pk  (b : Block) : (clearIdle b).pk = b.pk := rfl
@[simp] theorem clearIdle_pl  (b : Block) : (clearIdle b).pl = b.pl := rfl
@[simp] theorem clearIdle_pbuf  (b : Block) : (clearIdle b).pbuf = b.pbuf := rfl
@[simp] theorem clearIdle_cchk  (b : Block) : (clearIdle b).cchk = b.cchk := rfl
@[simp] theorem clearIdle_prdy  (b : Block) : (clearIdle b).prdy = b.prdy := rfl
@[simp] theorem clearIdle_dk  (b : Block) : (clearIdle b).dk = b.dk := rfl
@[simp] theorem clearIdle_dl  (b : Block) : (clearIdle b).dl = b.dl := rfl
@[simp] theorem clearIdle_dbuf  (b : Block) : (clearIdle b).dbuf = b.dbuf := rfl
@[simp] theorem clearIdle_lerr  (b : Block) : (clearIdle b).lerr = b.lerr := rfl
@[simp] theorem clearIdle_txb  (b : Block) : (clearIdle b).txb = b.txb := rfl
@[simp] theorem clearIdle_txbuf  (b : Block) : (clearIdle b).txbuf = b.txbuf := rfl
@[simp] theorem clearIdle_txlen  (b : Block) : (clearIdle b).txlen = b.txlen := rfl
@[simp] theorem clearIdle_txchk  (b : Block) : (clearIdle b).txchk = b.txchk := rfl
@[simp] theorem clearIdle_idle  (b : Block) : (clearIdle b).idle = 0 := rfl
@[simp] theorem clearIdle_trace  (b : Block) : (clearIdle b).trace = b.trace := rfl

/-! ### goto -/

@[simp] theorem goto_cfg (st : RxState) (b : Block) : (goto st b).cfg = b.cfg := rfl
@[simp] theorem goto_rxs (st : RxState) (b : Block) : (goto st b).rxs = st.code := rfl
@[simp] theorem goto_cur (st : RxState) (b : Block) : (goto st b).cur = b.cur := rfl
@[simp] theorem goto_pk (st : RxState) (b : Block) : (goto st b).pk = b.pk := rfl
@[simp] theorem goto_pl (st : RxState) (b : Block) : (goto st b).pl = b.pl := rfl
@[simp] theorem goto_pbuf (st : RxState) (b : Block) : (goto st b).pbuf = b.pbuf := rfl
@[simp] theorem goto_cchk (st : RxState) (b : Block) : (goto st b).cchk = b.cchk := rfl
@[simp] theorem goto_prdy (st : RxState) (b : Block) : (goto st b).prdy = b.prdy := rfl
@[simp] theorem goto_dk (st : RxState) (b : Block) : (goto st b).dk = b.dk := rfl
@[simp] theorem goto_dl (st : RxState) (b : Block) : (goto st b).dl = b.dl := rfl
@[simp] theorem goto_dbuf (st : RxState) (b : Block) : (goto st b).dbuf = b.dbuf := rfl
@[simp] theorem goto_lerr (st : RxState) (b : Block) : (goto st b).lerr = b.lerr := rfl
@[simp] theorem goto_txb (st : RxState) (b : Block) : (goto st b).txb = b.txb := rfl
@[simp] theorem goto_txbuf (st : RxState) (b : Block) : (goto st b).txbuf = b.txbuf := rfl
@[simp] theorem goto_txlen (st : RxState) (b : Block) : (goto st b).txlen = b.txlen := rfl
@[simp] theorem goto_txchk (st : RxState) (b : Block) : (goto st b).txchk = b.txchk := rfl
@[simp] theorem goto_idle (st : RxState) (b : Block) : (goto st b).idle = b.idle := rfl
@[simp] theorem goto_trace (st : RxState) (b : Block) : (goto st b).trace = b.trace := rfl

/-! ### raiseFault -/

@[simp] theorem raiseFault_cfg (code : FaultKind) (src : FaultSource) (b : Block) : (raiseFault code src b).cfg = b.cfg := rfl
@[simp] theorem raiseFault_rxs (code : FaultKind) (src : FaultSource) (b : Block) : (raiseFault code src b).rxs = 0#3 := rfl
@[simp] theorem raiseFault_cur (code : FaultKind) (src : FaultSource) (b : Block) : (raiseFault code src b).cur = b.cur := rfl
@[simp] theorem raiseFault_pk (code : FaultKind) (src : FaultSource) (b : Block) : (raiseFault code src b).pk = b.pk := rfl
@[simp] theorem raiseFault_pl (code : FaultKind) (src : FaultSource) (b : Block) : (raiseFault code src b).pl = b.pl := rfl
@[simp] theorem raiseFault_pbuf (code : FaultKind) (src : FaultSource) (b : Block) : (raiseFault code src b).pbuf = b.pbuf := rfl
@[simp] theorem raiseFault_cchk (code : FaultKind) (src : FaultSource) (b : Block) : (raiseFault code src b).cchk = b.cchk := rfl
@[simp] theorem raiseFault_prdy (code : FaultKind) (src : FaultSource) (b : Block) : (raiseFault code src b).prdy = b.prdy := rfl
@[simp] theorem raiseFault_dk (code : FaultKind) (src : FaultSource) (b : Block) : (raiseFault code src b).dk = b.dk := rfl
@[simp] theorem raiseFault_dl (code : FaultKind) (src : FaultSource) (b : Block) : (raiseFault code src b).dl = b.dl := rfl
@[simp] theorem raiseFault_dbuf (code : FaultKind) (src : FaultSource) (b : Block) : (raiseFault code src b).dbuf = b.dbuf := rfl
@[simp] theorem raiseFault_lerr (code : FaultKind) (src : FaultSource) (b : Block) : (raiseFault code src b).lerr = code.code := rfl
@[simp] theorem raiseFault_txb (code : FaultKind) (src : FaultSource) (b : Block) : (raiseFault code src b).txb = b.txb := rfl
@[simp] theorem raiseFault_txbuf (code : FaultKind) (src : FaultSource) (b : Block) : (raiseFault code src b).txbuf = b.txbuf := rfl
@[simp] theorem raiseFault_txlen (code : FaultKind) (src : FaultSource) (b : Block) : (raiseFault code src b).txlen = b.txlen := rfl
@[simp] theorem raiseFault_txchk (code : FaultKind) (src : FaultSource) (b : Block) : (raiseFault code src b).txchk = b.txchk := rfl
@[simp] theorem raiseFault_idle (code : FaultKind) (src : FaultSource) (b : Block) : (raiseFault code src b).idle = 0 := rfl
@[simp] theorem raiseFault_trace (code : FaultKind) (src : FaultSource) (b : Block) : (raiseFault code src b).trace = b.trace ++ [.fault code src] := rfl

/-! ### latchFrame -/

@[simp] theorem latchFrame_cfg  (b : Block) : (latchFrame b).cfg = b.cfg := rfl
@[simp] theorem latchFrame_rxs  (b : Block) : (latchFrame b).rxs = b.rxs := rfl
@[simp] theorem latchFrame_cur  (b : Block) : (latchFrame b).cur = b.cur := rfl
@[simp] theorem latchFrame_pk  (b : Block) : (latchFrame b).pk = b.pk := rfl
@[simp] theorem latchFrame_pl  (b : Block) : (latchFrame b).pl = b.pl := rfl
@[simp] theorem latchFrame_pbuf  (b : Block) : (latchFrame b).pbuf = b.pbuf := rfl
@[simp] theorem latchFrame_cchk  (b : Block) : (latchFrame b).cchk = b.cchk := rfl
@[simp] theorem latchFrame_prdy  (b : Block) : (latchFrame b).prdy = true := rfl
@[simp] theorem latchFrame_dk  (b : Block) : (latchFrame b).dk = b.pk := rfl
@[simp] theorem latchFrame_dl  (b : Block) : (latchFrame b).dl = b.pl := rfl
@[simp] theorem latchFrame_dbuf  (b : Block) : (latchFrame b).dbuf = bufWrite b.dbuf 0 (b.pbuf.take b.pl.toNat) := rfl
@[simp] theorem latchFrame_lerr  (b : Block) : (latchFrame b).lerr = b.lerr := rfl
@[simp] theorem latchFrame_txb  (b : Block) : (latchFrame b).txb = b.txb := rfl
@[simp] theorem latchFrame_txbuf  (b : Block) : (latchFrame b).txbuf = b.txbuf := rfl
@[simp] theorem latchFrame_txlen  (b : Block) : (latchFrame b).txlen = b.txlen := rfl
@[simp] theorem latchFrame_txchk  (b : Block) : (latchFrame b).txchk = b.txchk := rfl
@[simp] theorem latchFrame_idle  (b : Block) : (latchFrame b).idle = b.idle := rfl
@[simp] theorem latchFrame_trace  (b : Block) : (latchFrame b).trace = b.trace := rfl

/-! ### clearReady -/

@[simp] theorem clearReady_cfg  (b : Block) : (clearReady b).cfg = b.cfg := rfl
@[simp] theorem clearReady_rxs  (b : Block) : (clearReady b).rxs = b.rxs := rfl
@[simp] theorem clearReady_cur  (b : Block) : (clearReady b).cur = b.cur := rfl
@[simp] theorem clearReady_pk  (b : Block) : (clearReady b).pk = b.pk := rfl
@[simp] theorem clearReady_pl  (b : Block) : (clearReady b).pl = b.pl := rfl
@[simp] theorem clearReady_pbuf  (b : Block) : (clearReady b).pbuf = b.pbuf := rfl
@[simp] theorem clearReady_cchk  (b : Block) : (clearReady b).cchk = b.cchk := rfl
@[simp] theorem clearReady_prdy  (b : Block) : (clearReady b).prdy = false := rfl
@[simp] theorem clearReady_dk  (b : Block) : (clearReady b).dk = b.dk := rfl
@[simp] theorem clearReady_dl  (b : Block) : (clearReady b).dl = b.dl := rfl
@[simp] theorem clearReady_dbuf  (b : Block) : (clearReady b).dbuf = b.dbuf := rfl
@[simp] theorem clearReady_lerr  (b : Block) : (clearReady b).lerr = b.lerr := rfl
@[simp] theorem clearReady_txb  (b : Block) : (clearReady b).txb = b.txb := rfl
@[simp] theorem clearReady_txbuf  (b : Block) : (clearReady b).txbuf = b.txbuf := rfl
@[simp] theorem clearReady_txlen  (b : Block) : (clearReady b).txlen = b.txlen := rfl
@[simp] theorem clearReady_txchk  (b : Block) : (clearReady b).txchk = b.txchk := rfl
@[simp] theorem clearReady_idle  (b : Block) : (clearReady b).idle = b.idle := rfl
@[simp] theorem clearReady_trace  (b : Block) : (clearReady b).trace = b.trace := rfl

/-! ### setBusy -/

@[simp] theorem setBusy_cfg  (b : Block) : (setBusy b).cfg = b.cfg := rfl
@[simp] theorem setBusy_rxs  (b : Block) : (setBusy b).rxs = b.rxs := rfl
@[simp] theorem setBusy_cur  (b : Block) : (setBusy b).cur = b.cur := rfl
@[simp] theorem setBusy_pk  (b : Block) : (setBusy b).pk = b.pk := rfl
@[simp] theorem setBusy_pl  (b : Block) : (setBusy b).pl = b.pl := rfl
@[simp] theorem setBusy_pbuf  (b : Block) : (setBusy b).pbuf = b.pbuf := rfl
@[simp] theorem setBusy_cchk  (b : Block) : (setBusy b).cchk = b.cchk := rfl
@[simp] theorem setBusy_prdy  (b : Block) : (setBusy b).prdy = b.prdy := rfl
@[simp] theorem setBusy_dk  (b : Block) : (setBusy b).dk = b.dk := rfl
@[simp] theorem setBusy_dl  (b : Block) : (setBusy b).dl = b.dl := rfl
@[simp] theorem setBusy_dbuf  (b : Block) : (setBusy b).dbuf = b.dbuf := rfl
@[simp] theorem setBusy_lerr  (b : Block) : (setBusy b).lerr = b.lerr := rfl
@[simp] theorem setBusy_txb  (b : Block) : (setBusy b).txb = true := rfl
@[simp] theorem setBusy_txbuf  (b : Block) : (setBusy b).txbuf = b.txbuf := rfl
@[simp] theorem setBusy_txlen  (b : Block) : (setBusy b).txlen = b.txlen := rfl
@[simp] theorem setBusy_txchk  (b : Block) : (setBusy b).txchk = b.txchk := rfl
@[simp] theorem setBusy_idle  (b : Block) : (setBusy b).idle = b.idle := rfl
@[simp] theorem setBusy_trace  (b : Block) : (setBusy b).trace = b.trace := rfl

/-! ### clearBusy -/

@[simp] theorem clearBusy_cfg  (b : Block) : (clearBusy b).cfg = b.cfg := rfl
@[simp] theorem clearBusy_rxs  (b : Block) : (clearBusy b).rxs = b.rxs := rfl
@[simp] theorem clearBusy_cur  (b : Block) : (clearBusy b).cur = b.cur := rfl
@[simp] theorem clearBusy_pk  (b : Block) : (clearBusy b).pk = b.pk := rfl
@[simp] theorem clearBusy_pl  (b : Block) : (clearBusy b).pl = b.pl := rfl
@[simp] theorem clearBusy_pbuf  (b : Block) : (clearBusy b).pbuf = b.pbuf := rfl
@[simp] theorem clearBusy_cchk  (b : Block) : (clearBusy b).cchk = b.cchk := rfl
@[simp] theorem clearBusy_prdy  (b : Block) : (clearBusy b).prdy = b.prdy := rfl
@[simp] theorem clearBusy_dk  (b : Block) : (clearBusy b).dk = b.dk := rfl
@[simp] theorem clearBusy_dl  (b : Block) : (clearBusy b).dl = b.dl := rfl
@[simp] theorem clearBusy_dbuf  (b : Block) : (clearBusy b).dbuf = b.dbuf := rfl
@[simp] theorem clearBusy_lerr  (b : Block) : (clearBusy b).lerr = b.lerr := rfl
@[simp] theorem clearBusy_txb  (b : Block) : (clearBusy b).txb = false := rfl
@[simp] theorem clearBusy_txbuf  (b : Block) : (clearBusy b).txbuf = b.txbuf := rfl
@[simp] theorem clearBusy_txlen  (b : Block) : (clearBusy b).txlen = b.txlen := rfl
@[simp] theorem clearBusy_txchk  (b : Block) : (clearBusy b).txchk = b.txchk := rfl
@[simp] theorem clearBusy_idle  (b : Block) : (clearBusy b).idle = b.idle := rfl
@[simp] theorem clearBusy_trace  (b : Block) : (clearBusy b).trace = b.trace := rfl

/-! ### storeFrame -/

@[simp] theorem storeFrame_cfg (k len : Byte) (p : List Byte) (b : Block) : (storeFrame k len p b).cfg = b.cfg := rfl
@[simp] theorem storeFrame_rxs (k len : Byte) (p : List Byte) (b : Block) : (storeFrame k len p b).rxs = b.rxs := rfl
@[simp] theorem storeFrame_cur (k len : Byte) (p : List Byte) (b : Block) : (storeFrame k len p b).cur = b.cur := rfl
@[simp] theorem storeFrame_pk (k len : Byte) (p : List Byte) (b : Block) : (storeFrame k len p b).pk = b.pk := rfl
@[simp] theorem storeFrame_pl (k len : Byte) (p : List Byte) (b : Block) : (storeFrame k len p b).pl = b.pl := rfl
@[simp] theorem storeFrame_pbuf (k len : Byte) (p : List Byte) (b : Block) : (storeFrame k len p b).pbuf = b.pbuf := rfl
@[simp] theorem storeFrame_cchk (k len : Byte) (p : List Byte) (b : Block) : (storeFrame k len p b).cchk = b.cchk := rfl
@[simp] theorem storeFrame_prdy (k len : Byte) (p : List Byte) (b : Block) : (storeFrame k len p b).prdy = b.prdy := rfl
@[simp] theorem storeFrame_dk (k len : Byte) (p : List Byte) (b : Block) : (storeFrame k len p b).dk = b.dk := rfl
@[simp] theorem storeFrame_dl (k len : Byte) (p : List Byte) (b : Block) : (storeFrame k len p b).dl = b.dl := rfl
@[simp] theorem storeFrame_dbuf (k len : Byte) (p : List Byte) (b : Block) : (storeFrame k len p b).dbuf = b.dbuf := rfl
@[simp] theorem storeFrame_lerr (k len : Byte) (p : List Byte) (b : Block) : (storeFrame k len p b).lerr = b.lerr := rfl
@[simp] theorem storeFrame_txb (k len : Byte) (p : List Byte) (b : Block) : (storeFrame k len p b).txb = b.txb := rfl
@[simp] theorem storeFrame_txbuf (k len : Byte) (p : List Byte) (b : Block) : (storeFrame k len p b).txbuf = bufWrite b.txbuf 0 (frameOf b.cfg k len p) := rfl
@[simp] theorem storeFrame_txlen (k len : Byte) (p : List Byte) (b : Block) : (storeFrame k len p b).txlen = BitVec.ofNat 9 (len.toNat + 5) := rfl
@[simp] theorem storeFrame_txchk (k len : Byte) (p : List Byte) (b : Block) : (storeFrame k len p b).txchk = chk b.cfg (k :: len :: p) := rfl
@[simp] theorem storeFrame_idle (k len : Byte) (p : List Byte) (b : Block) : (storeFrame k len p b).idle = b.idle := rfl
@[simp] theorem storeFrame_trace (k len : Byte) (p : List Byte) (b : Block) : (storeFrame k len p b).trace = b.trace := rfl

/-! ### emitSend -/

@[simp] theorem emitSend_cfg  (b : Block) : (emitSend b).cfg = b.cfg := rfl
@[simp] theorem emitSend_rxs  (b : Block) : (emitSend b).rxs = b.rxs := rfl
@[simp] theorem emitSend_cur  (b : Block) : (emitSend b).cur = b.cur := rfl
@[simp] theorem emitSend_pk  (b : Block) : (emitSend b).pk = b.pk := rfl
@[simp] theorem emitSend_pl  (b : Block) : (emitSend b).pl = b.pl := rfl
@[simp] theorem emitSend_pbuf  (b : Block) : (emitSend b).pbuf = b.pbuf := rfl
@[simp] theorem emitSend_cchk  (b : Block) : (emitSend b).cchk = b.cchk := rfl
@[simp] theorem emitSend_prdy  (b : Block) : (emitSend b).prdy = b.prdy := rfl
@[simp] theorem emitSend_dk  (b : Block) : (emitSend b).dk = b.dk := rfl
@[simp] theorem emitSend_dl  (b : Block) : (emitSend b).dl = b.dl := rfl
@[simp] theorem emitSend_dbuf  (b : Block) : (emitSend b).dbuf = b.dbuf := rfl
@[simp] theorem emitSend_lerr  (b : Block) : (emitSend b).lerr = b.lerr := rfl
@[simp] theorem emitSend_txb  (b : Block) : (emitSend b).txb = b.txb := rfl
@[simp] theorem emitSend_txbuf  (b : Block) : (emitSend b).txbuf = b.txbuf := rfl
@[simp] theorem emitSend_txlen  (b : Block) : (emitSend b).txlen = b.txlen := rfl
@[simp] theorem emitSend_txchk  (b : Block) : (emitSend b).txchk = b.txchk := rfl
@[simp] theorem emitSend_idle  (b : Block) : (emitSend b).idle = b.idle := rfl
@[simp] theorem emitSend_trace  (b : Block) : (emitSend b).trace = b.trace ++ [.send (b.txbuf.take b.txlen.toNat)] := rfl

/-! ### reinitOp -/

@[simp] theorem reinitOp_cfg  (b : Block) : (reinitOp b).cfg = b.cfg := rfl
@[simp] theorem reinitOp_rxs  (b : Block) : (reinitOp b).rxs = 0#3 := rfl
@[simp] theorem reinitOp_cur  (b : Block) : (reinitOp b).cur = 0#8 := rfl
@[simp] theorem reinitOp_pk  (b : Block) : (reinitOp b).pk = 0#8 := rfl
@[simp] theorem reinitOp_pl  (b : Block) : (reinitOp b).pl = 0#8 := rfl
@[simp] theorem reinitOp_pbuf  (b : Block) : (reinitOp b).pbuf = List.replicate b.cfg.pMax.val 0#8 := rfl
@[simp] theorem reinitOp_cchk  (b : Block) : (reinitOp b).cchk = 0#8 := rfl
@[simp] theorem reinitOp_prdy  (b : Block) : (reinitOp b).prdy = false := rfl
@[simp] theorem reinitOp_dk  (b : Block) : (reinitOp b).dk = 0#8 := rfl
@[simp] theorem reinitOp_dl  (b : Block) : (reinitOp b).dl = 0#8 := rfl
@[simp] theorem reinitOp_dbuf  (b : Block) : (reinitOp b).dbuf = List.replicate b.cfg.pMax.val 0#8 := rfl
@[simp] theorem reinitOp_lerr  (b : Block) : (reinitOp b).lerr = 0#4 := rfl
@[simp] theorem reinitOp_txb  (b : Block) : (reinitOp b).txb = false := rfl
@[simp] theorem reinitOp_txbuf  (b : Block) : (reinitOp b).txbuf = List.replicate (b.cfg.pMax.val + 5) 0#8 := rfl
@[simp] theorem reinitOp_txlen  (b : Block) : (reinitOp b).txlen = 0#9 := rfl
@[simp] theorem reinitOp_txchk  (b : Block) : (reinitOp b).txchk = 0#8 := rfl
@[simp] theorem reinitOp_idle  (b : Block) : (reinitOp b).idle = 0 := rfl
@[simp] theorem reinitOp_trace  (b : Block) : (reinitOp b).trace = b.trace := rfl

/-! ### The machine's fields -/

@[simp] theorem afterFetch_block (rest : List Byte) (s : State) : (afterFetch rest s).block = s.block := rfl
@[simp] theorem afterFetch_cmds (rest : List Byte) (s : State) : (afterFetch rest s).cmds = rest := rfl
@[simp] theorem afterFetch_rets (rest : List Byte) (s : State) : (afterFetch rest s).rets = s.rets := rfl
@[simp] theorem withBlock_block (s : State) (b : Block) : (s.withBlock b).block = b := rfl
@[simp] theorem withBlock_cmds (s : State) (b : Block) : (s.withBlock b).cmds = s.cmds := rfl
@[simp] theorem withBlock_rets (s : State) (b : Block) : (s.withBlock b).rets = s.rets := rfl

/-! ### The numbers of the receive states (30_encoding.md R96) -/

@[simp] theorem ofCode_code (st : RxState) : RxState.ofCode st.code = some st := by
  cases st <;> rfl

theorem ofCode_eq_some {c : RxsCode} {st : RxState} (h : RxState.ofCode c = some st) : c = st.code := by
  revert h; revert c; cases st <;> decide

theorem ofCode_eq_none {c : RxsCode} (h : RxState.ofCode c = none) : c = 6#3 ∨ c = 7#3 := by
  revert h; revert c; decide

/-- A value of RXS above 5 is illegal, and no other (30_encoding.md R96). -/
theorem ofCode_isSome_iff (c : RxsCode) : (RxState.ofCode c).isSome = true ↔ c.toNat ≤ 5 := by
  revert c; decide

theorem faultCode_injective {k l : FaultKind} (h : k.code = l.code) : k = l := by
  cases k <;> cases l <;> first | rfl | exact absurd h (by decide)

end Sys2Proof.Machine
end

