-- ==== Sys2Proof/Laws/Ops.lean ====
section
/-! SUPPORT. One lemma for each shared operation that says once what it can do: writing a byte array, the payload
operand, the check WF, `answer`, and what each operation of the block does to its state. -/

namespace Sys2Proof.Machine

/-! ### Byte arrays -/

@[simp] theorem bufRead_eq (buf : List Byte) (n : Nat) : bufRead buf n = buf.take n := rfl

@[simp] theorem bufWrite_length (buf : List Byte) (start : Nat) (bs : List Byte) :
    (bufWrite buf start bs).length = buf.length := by
  induction bs generalizing buf start with
  | nil => rfl
  | cons b bs ih => simp [bufWrite, ih]

/-- What a write leaves at each index. -/
theorem bufWrite_getElem? (buf : List Byte) (start : Nat) (bs : List Byte) (j : Nat) :
    (bufWrite buf start bs)[j]? =
      if start ≤ j ∧ j < start + bs.length ∧ j < buf.length then bs[j - start]? else buf[j]? := by
  induction bs generalizing buf start with
  | nil =>
    simp only [bufWrite, List.length_nil]
    rw [if_neg (by omega)]
  | cons b bs ih =>
    rw [bufWrite, ih, List.length_set, List.length_cons]
    by_cases h : start + 1 ≤ j ∧ j < start + 1 + bs.length ∧ j < buf.length
    · rw [if_pos h, if_pos (by omega)]
      obtain ⟨d, rfl⟩ : ∃ d, j = start + 1 + d := ⟨j - (start + 1), by omega⟩
      have e : start + 1 + d - start = d + 1 := by omega
      rw [e, List.getElem?_cons_succ]
      congr 1
      omega
    · rw [if_neg h, List.getElem?_set]
      by_cases hj : start = j
      · subst hj
        by_cases hl : start < buf.length
        · simp [hl]
        · simp [hl]
      · rw [if_neg hj, if_neg (by omega)]

/-- A write that fits the array, from its start: the new bytes, then the old ones. -/
theorem bufWrite_zero (buf bs : List Byte) (h : bs.length ≤ buf.length) :
    bufWrite buf 0 bs = bs ++ buf.drop bs.length := by
  apply List.ext_getElem?
  intro j
  rw [bufWrite_getElem?, List.getElem?_append]
  by_cases hj : j < bs.length
  · rw [if_pos (by omega), if_pos hj, Nat.sub_zero]
  · rw [if_neg (by omega), if_neg hj, List.getElem?_drop]
    congr 1
    omega

@[simp] theorem bufWrite_one (buf : List Byte) (i : Nat) (x : Byte) : bufWrite buf i [x] = buf.set i x := rfl

/-! ### Operands -/

@[simp] theorem payloadOperand_length (len : Byte) (p : List Byte) : (payloadOperand len p).length = len.toNat := by
  simp [payloadOperand]

/-- A payload operand that carries its L bytes is read as `p[0..L)` (40_encode.md R130). -/
theorem payloadOperand_eq_take (len : Byte) (p : List Byte) (h : len.toNat ≤ p.length) :
    payloadOperand len p = p.take len.toNat := by
  apply List.ext_getElem
  · simp [payloadOperand, h]
  · intro i h1 h2
    have : i < p.length := by simp [payloadOperand] at h1; omega
    simp [payloadOperand, this]

@[simp] theorem checksumInput_eq (k len : Byte) (p : List Byte) : checksumInput k len p = k :: len :: p := rfl

@[simp] theorem frameBytes_length (c : Config) (k len : Byte) (p : List Byte) (x : Byte) :
    (frameBytes c k len p x).length = p.length + 5 := by
  simp [frameBytes]

@[simp] theorem frameOf_length (c : Config) (k len : Byte) (p : List Byte) :
    (frameOf c k len p).length = p.length + 5 := by
  simp [frameOf]

/-- TXLEN holds L + 5 exactly: "9-bit result, at most 260" (40_encode.md R130). -/
theorem frameLength_toNat (len : Byte) : (BitVec.ofNat 9 (len.toNat + 5)).toNat = len.toNat + 5 := by
  have := len.isLt
  simp only [BitVec.toNat_ofNat]
  omega

/-! ### The checksum -/

theorem xorBytes_append (s t : List Byte) : xorBytes (s ++ t) = xorBytes s ^^^ xorBytes t := by
  induction s with
  | nil => simp [xorBytes]
  | cons b s ih => simp [xorBytes, ih, BitVec.xor_assoc]

/-! ### Memory.wf -/

theorem memory_wf_iff (b : Block) : Memory.wf b = true ↔
    b.pbuf.length = b.cfg.pMax.val ∧ b.dbuf.length = b.cfg.pMax.val ∧ b.txbuf.length = b.cfg.pMax.val + 5 := by
  simp [Memory.wf, and_assoc]

/-- Reset memory is in the canonical form, for every configuration. -/
theorem construct_memory_wf (c : Config) : Memory.wf (Block.construct c) = true := by
  simp [Memory.wf, Block.construct]

/-! ### The check WF -/

theorem receiverWf_iff (b : Block) : receiverWf b = true ↔ receiveWf b := by
  unfold receiverWf receiveWf
  split
  case h_1 h =>
    rcases ofCode_eq_none h with h | h <;> simp [h]
  all_goals
    rename_i h
    have := ofCode_eq_some h
    simp [this, RxState.code]

/-! ### Results -/

@[simp] theorem answer_eq (r : Block × Ret) (s : State) :
    answer r s = .next { s with block := r.1, rets := s.rets ++ [r.2] } := rfl

@[simp] theorem answerRx_eq (r : Block × RxOutcome) (s : State) :
    answerRx r s = .next { s with block := r.1, rets := s.rets ++ [.rx r.2] } := rfl

@[simp] theorem hold_eq (s : State) : hold s = .next s := rfl

/-! ### The kind predicate -/

theorem kindOk_acceptAll {c : Config} (h : c.pKindOk = .acceptAll) (k : Byte) : kindOk c k = true := by
  simp [kindOk, h]

theorem kindOk_acceptOnly {c : Config} {kinds : List Byte} (h : c.pKindOk = .acceptOnly kinds) (k : Byte) :
    kindOk c k = true ↔ k ∈ kinds := by
  simp [kindOk, h]

end Sys2Proof.Machine
end

