-- ==== Sys2Proof/Laws/Receive.lean ====
section
/-! SUPPORT. What FEED_BYTE can do, said once: one equation per receive state (41_receive.md R151 to R157), the
inversion lemma `feedByteOp_cases`, and the corresponding facts of FEED_BUF (R161). -/

namespace Sys2Proof.Machine

/-! ### One equation per state -/

theorem feedByteOp_malformed (x : Byte) (b : Block) (h : ¬ receiveWf b) :
    feedByteOp x b = rxFault .malformedState (clearIdle b) := by
  have : receiverWf (clearIdle b) = false := by
    rw [Bool.eq_false_iff, ne_eq, receiverWf_iff]
    exact h
  simp [feedByteOp, guarded, this, rxMalformedOp]

/-- In a state that passes WF the transition is the one of the receive state that RXS encodes. -/
theorem feedByteOp_wf (x : Byte) (b : Block) (h : receiveWf b) :
    feedByteOp x b = selectedOp x (clearIdle b) := by
  have : receiverWf (clearIdle b) = true := (receiverWf_iff _).2 h
  simp [feedByteOp, guarded, this]

theorem receiveWf_of_le_two {b : Block} (h : b.rxs.toNat ≤ 2) : receiveWf b := by
  refine ⟨by omega, fun h' => ?_, fun h' => ?_⟩ <;> omega

theorem receiveWf_of_payload {b : Block} (h : b.rxs = 3#3) (hl : b.pl.toNat ≤ b.cfg.pMax.val)
    (hc : b.cur.toNat < b.pl.toNat) : receiveWf b :=
  ⟨by simp [h], fun _ => hl, fun _ => hc⟩

theorem receiveWf_of_full {b : Block} (h : b.rxs = 4#3 ∨ b.rxs = 5#3) (hl : b.pl.toNat ≤ b.cfg.pMax.val) :
    receiveWf b := by
  refine ⟨?_, fun _ => hl, fun h' => ?_⟩ <;> rcases h with h | h <;> simp_all

theorem feedByteOp_waitStart (x : Byte) (b : Block) (h : b.rxs = 0#3) :
    feedByteOp x b = rxWaitStartOp x (clearIdle b) := by
  rw [feedByteOp_wf x b (receiveWf_of_le_two (by simp [h]))]
  simp [selectedOp, h, RxState.ofCode]

theorem feedByteOp_getKind (x : Byte) (b : Block) (h : b.rxs = 1#3) :
    feedByteOp x b = rxGetKindOp x (clearIdle b) := by
  rw [feedByteOp_wf x b (receiveWf_of_le_two (by simp [h]))]
  simp [selectedOp, h, RxState.ofCode]

theorem feedByteOp_getLength (x : Byte) (b : Block) (h : b.rxs = 2#3) :
    feedByteOp x b = rxGetLengthOp x (clearIdle b) := by
  rw [feedByteOp_wf x b (receiveWf_of_le_two (by simp [h]))]
  simp [selectedOp, h, RxState.ofCode]

theorem feedByteOp_getPayload (x : Byte) (b : Block) (h : b.rxs = 3#3) (hl : b.pl.toNat ≤ b.cfg.pMax.val)
    (hc : b.cur.toNat < b.pl.toNat) : feedByteOp x b = rxGetPayloadOp x (clearIdle b) := by
  rw [feedByteOp_wf x b (receiveWf_of_payload h hl hc)]
  simp [selectedOp, h, RxState.ofCode]

theorem feedByteOp_getChecksum (x : Byte) (b : Block) (h : b.rxs = 4#3) (hl : b.pl.toNat ≤ b.cfg.pMax.val) :
    feedByteOp x b = rxGetChecksumOp x (clearIdle b) := by
  rw [feedByteOp_wf x b (receiveWf_of_full (.inl h) hl)]
  simp [selectedOp, h, RxState.ofCode]

theorem feedByteOp_getStop (x : Byte) (b : Block) (h : b.rxs = 5#3) (hl : b.pl.toNat ≤ b.cfg.pMax.val) :
    feedByteOp x b = rxGetStopOp x (clearIdle b) := by
  rw [feedByteOp_wf x b (receiveWf_of_full (.inr h) hl)]
  simp [selectedOp, h, RxState.ofCode]

/-- CUR + 1 in 8 bits is exact while CUR < PL (41_receive.md R154). -/
theorem cursor_succ_toNat {cur pl : Byte} (h : cur.toNat < pl.toNat) : (cur + 1#8).toNat = cur.toNat + 1 := by
  have := pl.isLt
  simp only [BitVec.toNat_add, BitVec.toNat_ofNat]
  omega

theorem cursor_succ_eq_iff {cur pl : Byte} (h : cur.toNat < pl.toNat) :
    cur + 1#8 = pl ↔ cur.toNat + 1 = pl.toNat := by
  rw [← BitVec.toNat_inj, cursor_succ_toNat h]

/-- GetPayload's transition, with its next state decided by exact arithmetic. -/
theorem rxGetPayloadOp_eq (x : Byte) (b : Block) (h : b.cur.toNat < b.pl.toNat) :
    rxGetPayloadOp x b =
      ({ b with
          pbuf := b.pbuf.set b.cur.toNat x, cur := b.cur + 1#8
          rxs := if b.cur.toNat + 1 = b.pl.toNat then 4#3 else 3#3 }, .incomplete) := by
  unfold rxGetPayloadOp
  simp only [cursor_succ_eq_iff h, bufWrite_one]
  split <;> rfl

/-! ### Inversion -/

/-- Everything FEED_BYTE can do: a fault, with the Error Manager action after IDLE <- 0 and nothing else; one of the
seven accepting transitions; or the delivery of a frame. -/
theorem feedByteOp_cases (x : Byte) (b : Block) :
    (∃ code : FaultKind, code.raised = true ∧ code ≠ .timeout ∧
      feedByteOp x b = rxFault code (clearIdle b)) ∨
    (b.rxs = 0#3 ∧ x = b.cfg.pStart ∧
      feedByteOp x b = ({ b with idle := 0, cur := 0#8, rxs := 1#3 }, .incomplete)) ∨
    (b.rxs = 1#3 ∧ kindOk b.cfg x = true ∧
      feedByteOp x b = ({ b with idle := 0, pk := x, rxs := 2#3 }, .incomplete)) ∨
    (b.rxs = 2#3 ∧ x = 0#8 ∧
      feedByteOp x b = ({ b with idle := 0, pl := x, rxs := 4#3 }, .incomplete)) ∨
    (b.rxs = 2#3 ∧ x ≠ 0#8 ∧ x.toNat ≤ b.cfg.pMax.val ∧
      feedByteOp x b = ({ b with idle := 0, pl := x, rxs := 3#3 }, .incomplete)) ∨
    (b.rxs = 3#3 ∧ b.pl.toNat ≤ b.cfg.pMax.val ∧ b.cur.toNat < b.pl.toNat ∧
      feedByteOp x b = ({ b with
        idle := 0, pbuf := b.pbuf.set b.cur.toNat x, cur := b.cur + 1#8
        rxs := if b.cur.toNat + 1 = b.pl.toNat then 4#3 else 3#3 }, .incomplete)) ∨
    (b.rxs = 4#3 ∧ b.pl.toNat ≤ b.cfg.pMax.val ∧
      feedByteOp x b = ({ b with idle := 0, cchk := x, rxs := 5#3 }, .incomplete)) ∨
    (b.rxs = 5#3 ∧ b.pl.toNat ≤ b.cfg.pMax.val ∧ x = b.cfg.pStop ∧ recomputedChecksum b = b.cchk ∧
      feedByteOp x b = ({ b with
        idle := 0, dk := b.pk, dl := b.pl, dbuf := bufWrite b.dbuf 0 (b.pbuf.take b.pl.toNat), prdy := true
        rxs := 0#3, trace := b.trace ++ [.frameReady b.pk b.pl (b.pbuf.take b.pl.toNat)] }, .frameReady)) := by
  by_cases hw : receiveWf b
  swap
  · exact .inl ⟨.malformedState, rfl, by decide, feedByteOp_malformed x b hw⟩
  obtain ⟨h5, hl, hc⟩ := hw
  have hr : b.rxs = 0#3 ∨ b.rxs = 1#3 ∨ b.rxs = 2#3 ∨ b.rxs = 3#3 ∨ b.rxs = 4#3 ∨ b.rxs = 5#3 := by
    revert h5; generalize b.rxs = c; revert c; decide
  rcases hr with h | h | h | h | h | h
  · rw [feedByteOp_waitStart x b h, rxWaitStartOp]
    by_cases hx : x = b.cfg.pStart
    · exact .inr (.inl ⟨h, hx, by simp [hx]; rfl⟩)
    · exact .inl ⟨.invalidStart, rfl, by decide, by simp [hx]⟩
  · rw [feedByteOp_getKind x b h, rxGetKindOp]
    by_cases hx : kindOk b.cfg x = true
    · exact .inr (.inr (.inl ⟨h, hx, by simp [hx]; rfl⟩))
    · exact .inl ⟨.unrecognizedKind, rfl, by decide, by simp [hx]⟩
  · rw [feedByteOp_getLength x b h, rxGetLengthOp]
    by_cases hx : x.toNat ≤ b.cfg.pMax.val
    · by_cases h0 : x = 0#8
      · exact .inr (.inr (.inr (.inl ⟨h, h0, by subst h0; simp; rfl⟩)))
      · exact .inr (.inr (.inr (.inr (.inl ⟨h, h0, hx, by simp [hx, h0]; rfl⟩))))
    · exact .inl ⟨.payloadTooLarge, rfl, by decide, by simp [hx]⟩
  · have hl := hl (by simp [h])
    have hc := hc (by simp [h])
    rw [feedByteOp_getPayload x b h hl hc, rxGetPayloadOp_eq x (clearIdle b) hc]
    exact .inr (.inr (.inr (.inr (.inr (.inl ⟨h, hl, hc, rfl⟩)))))
  · have hl := hl (by simp [h])
    rw [feedByteOp_getChecksum x b h hl]
    exact .inr (.inr (.inr (.inr (.inr (.inr (.inl ⟨h, hl, rfl⟩))))))
  · have hl := hl (by simp [h])
    rw [feedByteOp_getStop x b h hl, rxGetStopOp, clearIdle_cfg]
    by_cases hx : x = b.cfg.pStop
    · by_cases hk : recomputedChecksum b = b.cchk
      · have hk' : recomputedChecksum (clearIdle b) = (clearIdle b).cchk := hk
        refine .inr (.inr (.inr (.inr (.inr (.inr (.inr ⟨h, hl, hx, hk, ?_⟩))))))
        rw [if_pos hx, if_pos hk']
        rfl
      · have hk' : ¬ recomputedChecksum (clearIdle b) = (clearIdle b).cchk := hk
        refine .inl ⟨.checksumMismatch, rfl, by decide, ?_⟩
        rw [if_pos hx, if_neg hk']
    · refine .inl ⟨.invalidStop, rfl, by decide, ?_⟩
      rw [if_neg hx]

/-- What FEED_BYTE never writes: the configuration and the transmit registers (20_memory.md R80). -/
theorem feedByteOp_keeps (x : Byte) (b : Block) :
    (feedByteOp x b).1.cfg = b.cfg ∧ (feedByteOp x b).1.txb = b.txb ∧ (feedByteOp x b).1.txbuf = b.txbuf ∧
    (feedByteOp x b).1.txlen = b.txlen ∧ (feedByteOp x b).1.txchk = b.txchk := by
  rcases feedByteOp_cases x b with ⟨_, _, _, h⟩ | ⟨_, _, h⟩ | ⟨_, _, h⟩ | ⟨_, _, h⟩ | ⟨_, _, _, h⟩ | ⟨_, _, _, h⟩ |
    ⟨_, _, h⟩ | ⟨_, _, _, _, h⟩ <;> simp [h, rxFault]

/-- FEED_BYTE zeroes IDLE on every path (41_receive.md R150). -/
theorem feedByteOp_idle (x : Byte) (b : Block) : (feedByteOp x b).1.idle = 0 := by
  rcases feedByteOp_cases x b with ⟨_, _, _, h⟩ | ⟨_, _, h⟩ | ⟨_, _, h⟩ | ⟨_, _, h⟩ | ⟨_, _, _, h⟩ | ⟨_, _, _, h⟩ |
    ⟨_, _, h⟩ | ⟨_, _, _, _, h⟩ <;> simp [h, rxFault]

/-- FEED_BYTE keeps the byte arrays at their lengths. -/
theorem feedByteOp_memory_wf (x : Byte) (b : Block) (hm : Memory.wf b = true) :
    Memory.wf (feedByteOp x b).1 = true := by
  rw [memory_wf_iff] at hm ⊢
  rcases feedByteOp_cases x b with ⟨_, _, _, h⟩ | ⟨_, _, h⟩ | ⟨_, _, h⟩ | ⟨_, _, h⟩ | ⟨_, _, _, h⟩ | ⟨_, _, _, h⟩ |
    ⟨_, _, h⟩ | ⟨_, _, _, _, h⟩ <;> simp [h, rxFault, hm]

/-! ### The rows -/

/-- A row that RXS selects performs what FEED_BYTE performs (41_receive.md R150). -/
theorem runRow_selected (code : RxsCode) (op : Block → Block × RxOutcome) (s : State) (h : s.block.rxs = code) :
    runRow code op s = answerRx (guarded op (clearIdle s.block)) s := by
  simp [runRow, h]

/-- A row that RXS does not select takes no step (notes/assumptions/9.md). -/
theorem runRow_unselected (code : RxsCode) (op : Block → Block × RxOutcome) (s : State) (h : s.block.rxs ≠ code) :
    runRow code op s = .next s := by
  simp [runRow, h]

/-! ### FEED_BUF -/

@[simp] theorem feedBufOp_nil (i : Nat) (b : Block) : feedBufOp [] i b = (b, .incomplete, i) := rfl

theorem feedBufOp_cons (x : Byte) (xs : List Byte) (i : Nat) (b : Block) :
    feedBufOp (x :: xs) i b =
      if (feedByteOp x b).2 = .frameReady then ((feedByteOp x b).1, .frameReady, i + 1)
      else feedBufOp xs (i + 1) (feedByteOp x b).1 := by
  rw [feedBufOp]
  rcases h : feedByteOp x b with ⟨b', o⟩
  cases o <;> simp

/-- The count that the loop starts with is added to what it consumes. -/
theorem feedBufOp_shift (xs : List Byte) (i : Nat) (b : Block) :
    feedBufOp xs i b = ((feedBufOp xs 0 b).1, (feedBufOp xs 0 b).2.1, i + (feedBufOp xs 0 b).2.2) := by
  induction xs generalizing i b with
  | nil => simp [feedBufOp]
  | cons x xs ih =>
    rw [feedBufOp_cons, feedBufOp_cons]
    split
    · simp
    · rw [ih (i + 1), ih (0 + 1)]
      simp [Nat.add_assoc]

/-- A relation between block states that is reflexive, transitive and contains FEED_BYTE contains FEED_BUF. -/
theorem feedBufOp_lift {R : Block → Block → Prop} (hrefl : ∀ b, R b b) (htrans : ∀ a b c, R a b → R b c → R a c)
    (hfeed : ∀ x b, R b (feedByteOp x b).1) (xs : List Byte) (i : Nat) (b : Block) :
    R b (feedBufOp xs i b).1 := by
  induction xs generalizing i b with
  | nil => exact hrefl b
  | cons x xs ih =>
    rw [feedBufOp_cons]
    split
    · exact hfeed x b
    · exact htrans _ _ _ (hfeed x b) (ih _ _)

end Sys2Proof.Machine
end

