-- ==== Sys2Proof/Laws/Exec.lean ====
section
/-! SUPPORT. What an operation can do to the block's state, said once over all instructions: the inversion lemmas of
the transmit path and the timer, `exec_block_cases`, and `exec_lift`, which carries a relation or a property from
the block's operations to every instruction. -/

namespace Sys2Proof.Machine

/-! ### The operations of the transmit path and the timer -/

/-- Everything a performed ENCODE can do (40_encode.md R130, R132). -/
theorem encodeOp_cases (k len : Byte) (p : List Byte) (b : Block) :
    (b.cfg.pMax.val < len.toNat ∧
      encodeOp k len p b = (raiseFault .payloadTooLarge .tx b, .fault .payloadTooLarge)) ∨
    (len.toNat ≤ b.cfg.pMax.val ∧
      encodeOp k len p b = (emitSend (setBusy (storeFrame k len (payloadOperand len p) b)), .ok)) := by
  by_cases h : b.cfg.pMax.val < len.toNat
  · exact .inl ⟨h, by simp [encodeOp, h]⟩
  · exact .inr ⟨by omega, by simp [encodeOp, h]⟩

theorem encodeOp_memory_wf (k len : Byte) (p : List Byte) (b : Block) (hm : Memory.wf b = true) :
    Memory.wf (encodeOp k len p b).1 = true := by
  rw [memory_wf_iff] at hm ⊢
  rcases encodeOp_cases k len p b with ⟨_, h⟩ | ⟨_, h⟩ <;> simp [h, hm]

/-- TX_COMPLETE leaves TXB = 0, whatever it was (40_encode.md R135). -/
theorem txCompleteOp_eq (b : Block) : txCompleteOp b = ({ b with txb := false }, .ok) := by
  unfold txCompleteOp clearBusy
  cases h : b.txb <;> simp
  rw [← h]

/-- CONSUME leaves PRDY = 0, whatever it was (42_host_ops.md R191). -/
theorem consumeOp_fst (b : Block) : (consumeOp b).1 = { b with prdy := false } := by
  unfold consumeOp clearReady
  cases h : b.prdy <;> simp
  rw [← h]

/-- Everything TICK can do (42_host_ops.md R193). -/
theorem tickOp_cases (b : Block) :
    ((b.cfg.pTimeout = 0 ∨ b.rxs = 0#3) ∧ tickOp b = b) ∨
    (b.cfg.pTimeout ≠ 0 ∧ b.rxs ≠ 0#3 ∧ b.idle + 1 < b.cfg.pTimeout ∧ tickOp b = { b with idle := b.idle + 1 }) ∨
    (b.cfg.pTimeout ≠ 0 ∧ b.rxs ≠ 0#3 ∧ b.cfg.pTimeout ≤ b.idle + 1 ∧ tickOp b = raiseFault .timeout .tmr b) := by
  by_cases ht : b.cfg.pTimeout = 0
  · exact .inl ⟨.inl ht, by simp [tickOp, tickFires, tickCounts, ht]⟩
  by_cases hr : b.rxs = 0#3
  · exact .inl ⟨.inr hr, by simp [tickOp, tickFires, tickCounts, hr, RxState.code]⟩
  have hc : tickCounts b = true := by simp [tickCounts, ht, hr, RxState.code]
  by_cases hi : b.cfg.pTimeout ≤ b.idle + 1
  · exact .inr (.inr ⟨ht, hr, hi, by simp [tickOp, tickFires, hc, hi]; rfl⟩)
  · exact .inr (.inl ⟨ht, hr, by omega, by simp [tickOp, tickFires, hc, hi]⟩)

theorem tickOp_memory_wf (b : Block) (hm : Memory.wf b = true) : Memory.wf (tickOp b) = true := by
  rcases tickOp_cases b with ⟨_, h⟩ | ⟨_, _, _, h⟩ | ⟨_, _, _, h⟩ <;> rw [h] <;> exact hm

/-! ### All instructions -/

/-- What a row does: nothing when RXS does not select it, and otherwise what FEED_BYTE does. -/
theorem exec_row (i : Instr) (c : RxsCode) (hi : i.rowCode = some c) (s : State) :
    (s.block.rxs ≠ c ∧ exec i s = .next s) ∨
    (∃ x, s.block.rxs = c ∧ i = selectRow c x ∧ exec i s = answerRx (feedByteOp x s.block) s) := by
  by_cases h : s.block.rxs = c
  · right
    have key : ∀ (st : RxState) (op : Byte → Block → Block × RxOutcome) (x : Byte), s.block.rxs = st.code →
        (∀ b, b.rxs = st.code → selectedOp x b = op x b) →
        runRow st.code (op x) s = answerRx (feedByteOp x s.block) s := by
      intro st op x hs hop
      rw [runRow_selected _ _ _ hs, feedByteOp, guarded, guarded, hop (clearIdle s.block) hs]
    have illegal : ∀ x, (s.block.rxs = 6#3 ∨ s.block.rxs = 7#3) → ∀ d, s.block.rxs = d →
        runRow d rxMalformedOp s = answerRx (feedByteOp x s.block) s := by
      intro x hx d hd
      rw [runRow_selected _ _ _ hd, feedByteOp_malformed x s.block]
      · simp [guarded, rxMalformedOp]
      · rintro ⟨h5, -⟩
        rcases hx with hx | hx <;> simp [hx] at h5
    cases i <;> simp only [Instr.rowCode, Option.some.injEq, reduceCtorEq] at hi <;> subst hi
    case rxWaitStart x =>
      exact ⟨x, h, rfl, key .waitStart rxWaitStartOp x h fun b hb => by simp [selectedOp, hb]⟩
    case rxGetKind x =>
      exact ⟨x, h, rfl, key .getKind rxGetKindOp x h fun b hb => by simp [selectedOp, hb]⟩
    case rxGetLength x =>
      exact ⟨x, h, rfl, key .getLength rxGetLengthOp x h fun b hb => by simp [selectedOp, hb]⟩
    case rxGetPayload x =>
      exact ⟨x, h, rfl, key .getPayload rxGetPayloadOp x h fun b hb => by simp [selectedOp, hb]⟩
    case rxGetChecksum x =>
      exact ⟨x, h, rfl, key .getChecksum rxGetChecksumOp x h fun b hb => by simp [selectedOp, hb]⟩
    case rxGetStop x =>
      exact ⟨x, h, rfl, key .getStop rxGetStopOp x h fun b hb => by simp [selectedOp, hb]⟩
    case rxIllegal6 x => exact ⟨x, h, rfl, illegal x (.inl h) _ h⟩
    case rxIllegal7 x => exact ⟨x, h, rfl, illegal x (.inr h) _ h⟩
  · left
    refine ⟨h, ?_⟩
    cases i <;> simp only [Instr.rowCode, Option.some.injEq, reduceCtorEq] at hi <;> subst hi <;>
      exact runRow_unselected _ _ _ h

/-- Everything an instruction can do to the block's state when it answers a next state. -/
theorem exec_block_cases {i : Instr} {s t : State} (h : exec i s = .next t) :
    t.block = s.block ∨
    ((∀ bs, i ≠ .feedBuf bs) ∧ ∃ x, t.block = (feedByteOp x s.block).1) ∨
    (∃ bs, i = .feedBuf bs ∧ t.block = (feedBufOp bs 0 s.block).1) ∨
    (∃ k len p, i = .encodeFrame k len p ∧ s.block.txb = false ∧ t.block = (encodeOp k len p s.block).1) ∨
    (i = .txComplete ∧ t.block = { s.block with txb := false }) ∨
    (i = .consume ∧ t.block = { s.block with prdy := false }) ∨
    (i = .reinit ∧ t.block = reinitOp s.block) ∨
    (i = .tick ∧ t.block = tickOp s.block) := by
  have row : ∀ c, i.rowCode = some c → t.block = s.block ∨
      ((∀ bs, i ≠ .feedBuf bs) ∧ ∃ x, t.block = (feedByteOp x s.block).1) := by
    intro c hc
    rcases exec_row i c hc s with ⟨_, he⟩ | ⟨x, _, _, he⟩
    · left
      rw [he, Host.Outcome.next.injEq] at h
      rw [← h]
    · right
      rw [he, answerRx_eq, Host.Outcome.next.injEq] at h
      refine ⟨?_, x, by rw [← h]⟩
      rintro bs rfl
      simp [Instr.rowCode] at hc
  cases i
  case nop => left; simp [exec, execNop] at h; rw [← h]
  case feedByte x =>
    right; left
    simp [exec, execFeedByte] at h
    exact ⟨by simp, x, by rw [← h]⟩
  case encodeFrame k len p =>
    simp only [exec, execEncodeFrame] at h
    split at h
    · left; simp at h; rw [h]
    · right; right; right; left
      rename_i hb
      simp at h
      exact ⟨k, len, p, rfl, by simpa using hb, by rw [← h]⟩
  case txComplete =>
    simp [exec, execTxComplete, txCompleteOp_eq] at h
    right; right; right; right; left
    exact ⟨rfl, by rw [← h]⟩
  case readFrame => left; simp [exec, execReadFrame] at h; rw [← h]
  case consume =>
    simp [exec, execConsume, consumeOp_fst] at h
    right; right; right; right; right; left
    exact ⟨rfl, by rw [← h]⟩
  case reinit =>
    simp [exec, execReinit] at h
    right; right; right; right; right; right; left
    exact ⟨rfl, by rw [← h]⟩
  case tick =>
    simp [exec, execTick] at h
    right; right; right; right; right; right; right
    exact ⟨rfl, by rw [← h]⟩
  case feedBuf bs =>
    simp [exec, execFeedBuf] at h
    right; right; left
    exact ⟨bs, rfl, by rw [← h]⟩
  case reserved op => simp [exec, execReserved] at h
  all_goals
    rcases row _ rfl with hr | hr
    · exact .inl hr
    · exact .inr (.inl hr)

/-- No instruction writes the command stream. -/
theorem exec_cmds {i : Instr} {s t : State} (h : exec i s = .next t) : t.cmds = s.cmds := by
  have row : ∀ c, i.rowCode = some c → t.cmds = s.cmds := by
    intro c hc
    rcases exec_row i c hc s with ⟨_, he⟩ | ⟨x, _, _, he⟩ <;> rw [he] at h
    · simp at h; rw [h]
    · simp at h; rw [← h]
  cases i
  case encodeFrame k len p =>
    simp only [exec, execEncodeFrame] at h
    split at h <;> simp at h
    · rw [h]
    · rw [← h]
  case reserved op => simp [exec, execReserved] at h
  case nop => simp [exec, execNop] at h; rw [← h]
  case feedByte x => simp [exec, execFeedByte] at h; rw [← h]
  case txComplete => simp [exec, execTxComplete] at h; rw [← h]
  case readFrame => simp [exec, execReadFrame] at h; rw [← h]
  case consume => simp [exec, execConsume] at h; rw [← h]
  case reinit => simp [exec, execReinit] at h; rw [← h]
  case tick => simp [exec, execTick] at h; rw [← h]
  case feedBuf bs => simp [exec, execFeedBuf] at h; rw [← h]
  all_goals exact row _ rfl

/-- Every instruction but a reserved opcode answers a next state. -/
theorem exec_completes (i : Instr) (s : State) (hi : ∀ op, i ≠ .reserved op) : ∃ t, exec i s = .next t := by
  have row : ∀ c, i.rowCode = some c → ∃ t, exec i s = .next t := by
    intro c hc
    rcases exec_row i c hc s with ⟨_, he⟩ | ⟨x, _, _, he⟩
    · exact ⟨_, he⟩
    · exact ⟨_, he⟩
  cases i
  case encodeFrame k len p =>
    simp only [exec, execEncodeFrame]
    split <;> exact ⟨_, rfl⟩
  case reserved op => exact absurd rfl (hi op)
  case nop => exact ⟨_, rfl⟩
  case feedByte x => exact ⟨_, rfl⟩
  case txComplete => exact ⟨_, rfl⟩
  case readFrame => exact ⟨_, rfl⟩
  case consume => exact ⟨_, rfl⟩
  case reinit => exact ⟨_, rfl⟩
  case tick => exact ⟨_, rfl⟩
  case feedBuf bs => exact ⟨_, rfl⟩
  all_goals exact row _ rfl

/-- A reflexive and transitive relation between block states that contains the block's operations contains every
instruction. -/
theorem exec_lift {R : Block → Block → Prop} (hrefl : ∀ b, R b b) (htrans : ∀ a b c, R a b → R b c → R a c)
    (hfeed : ∀ x b, R b (feedByteOp x b).1) (hencode : ∀ k len p b, b.txb = false → R b (encodeOp k len p b).1)
    (hdone : ∀ b : Block, R b { b with txb := false }) (hconsume : ∀ b : Block, R b { b with prdy := false })
    (hreinit : ∀ b, R b (reinitOp b)) (htick : ∀ b, R b (tickOp b))
    {i : Instr} {s t : State} (h : exec i s = .next t) : R s.block t.block := by
  rcases exec_block_cases h with e | ⟨_, x, e⟩ | ⟨bs, _, e⟩ | ⟨k, len, p, _, hb, e⟩ | ⟨_, e⟩ | ⟨_, e⟩ | ⟨_, e⟩ |
    ⟨_, e⟩ <;> rw [e]
  · exact hrefl _
  · exact hfeed _ _
  · exact feedBufOp_lift hrefl htrans hfeed _ _ _
  · exact hencode _ _ _ _ hb
  · exact hdone _
  · exact hconsume _
  · exact hreinit _
  · exact htick _

/-! ### Performing an operation -/

theorem perform_of_next {i : Instr} {s t : State} (h : exec i s = .next t) : perform i s = t := by
  simp [perform, h]

/-- No step is taken for a reserved opcode (30_encoding.md R101). -/
@[simp] theorem perform_reserved (op : Byte) (s : State) : perform (.reserved op) s = s := rfl

end Sys2Proof.Machine
end

