-- ==== Sys2Proof/Laws/Frames.lean ====
section
/-! SUPPORT. Runs of FEED_BYTE: what a run of operations does, and the state after a candidate frame has been fed up
to its checksum byte (41_receive.md R151 to R155). -/

namespace Sys2Proof.Machine

/-! ### Runs -/

@[simp] theorem execAll_nil (s : State) : execAll [] s = .next s := rfl

theorem execAll_cons {i : Instr} {s t : State} (h : exec i s = .next t) (is : List Instr) :
    execAll (i :: is) s = execAll is t := by
  simp [execAll, h]

theorem execAll_append {is : List Instr} {s t : State} (h : execAll is s = .next t) (js : List Instr) :
    execAll (is ++ js) s = execAll js t := by
  induction is generalizing s with
  | nil => simp at h; simp [h]
  | cons i is ih =>
    rcases he : exec i s with u | r | r
    · rw [execAll_cons he] at h
      rw [List.cons_append, execAll_cons he, ih h]
    · exact nomatch r
    · simp [execAll, he] at h

/-- One FEED_BYTE of a run, from the operation on the block. -/
theorem execAll_feedByte {x : Byte} {s : State} {b : Block} {o : RxOutcome} (h : feedByteOp x s.block = (b, o))
    (is : List Instr) :
    execAll (.feedByte x :: is) s = execAll is { s with block := b, rets := s.rets ++ [.rx o] } := by
  rw [execAll_cons (t := { s with block := b, rets := s.rets ++ [.rx o] })]
  simp [exec, execFeedByte, h]

/-! ### The fields of a frame -/

/-- The state in which GetPayload, entered with the cursor at `start`, leaves the receiver once `q` has filled the
payload. -/
def payloadFed (q : List Byte) (s : State) : State :=
  { s with
    block := { s.block with
      idle := 0, pbuf := bufWrite s.block.pbuf s.block.cur.toNat q, cur := s.block.pl, rxs := 4#3 }
    rets := s.rets ++ List.replicate q.length (.rx .incomplete) }

/-- The rest of a payload, fed in GetPayload, is stored from the cursor on (41_receive.md R154). -/
theorem feed_payload (q : List Byte) (s : State) (hq : q ≠ []) (hr : s.block.rxs = 3#3)
    (hl : s.block.pl.toNat ≤ s.block.cfg.pMax.val) (hc : s.block.cur.toNat + q.length = s.block.pl.toNat) :
    execAll (q.map .feedByte) s = .next (payloadFed q s) := by
  induction q generalizing s with
  | nil => exact absurd rfl hq
  | cons x q ih =>
    rw [List.length_cons] at hc
    have hlt : s.block.cur.toNat < s.block.pl.toNat := by omega
    have hop := feedByteOp_getPayload x s.block hr hl hlt
    rw [rxGetPayloadOp_eq x (clearIdle s.block) hlt] at hop
    rw [List.map_cons, execAll_feedByte hop]
    have hcur := cursor_succ_toNat hlt
    cases q with
    | nil =>
      have hpl : s.block.cur + 1#8 = s.block.pl := (cursor_succ_eq_iff hlt).2 (by simpa using hc)
      have hpl' : s.block.cur.toNat + 1 = s.block.pl.toNat := by simpa using hc
      simp [payloadFed, hpl, hpl', clearIdle]
    | cons y q =>
      have hne : s.block.cur.toNat + 1 ≠ s.block.pl.toNat := by simp at hc; omega
      rw [ih _ (by simp)]
      · simp [payloadFed, hcur, bufWrite, clearIdle, List.replicate_succ]
      · simp [hne]
      · exact hl
      · simp only [clearIdle_cur, clearIdle_pl, hcur]
        omega

/-- The state in which the fields of a candidate frame, from the start sentinel to the checksum byte `c`, leave a
receiver that was in WaitStart. -/
def candidateFed (k len : Byte) (q : List Byte) (c : Byte) (s : State) : State :=
  { s with
    block := { s.block with
      idle := 0, cur := len, pk := k, pl := len, pbuf := bufWrite s.block.pbuf 0 q, cchk := c, rxs := 5#3 }
    rets := s.rets ++ List.replicate (len.toNat + 4) (.rx .incomplete) }

/-- Feeding a candidate frame up to its checksum byte (41_receive.md R151 to R155): every byte gives Incomplete. -/
theorem feed_candidate (k len : Byte) (q : List Byte) (c : Byte) (s : State) (hr : s.block.rxs = 0#3)
    (hk : kindOk s.block.cfg k = true) (hl : len.toNat ≤ s.block.cfg.pMax.val) (hq : q.length = len.toNat) :
    execAll ((s.block.cfg.pStart :: k :: len :: (q ++ [c])).map .feedByte) s = .next (candidateFed k len q c s) := by
  rw [List.map_cons, execAll_feedByte (b := { s.block with idle := 0, cur := 0#8, rxs := 1#3 }) (o := .incomplete)]
  swap
  · rw [feedByteOp_waitStart _ _ hr, rxWaitStartOp]
    simp
    rfl
  rw [List.map_cons, execAll_feedByte
    (b := { s.block with idle := 0, cur := 0#8, pk := k, rxs := 2#3 }) (o := .incomplete)]
  swap
  · rw [feedByteOp_getKind _ _ rfl, rxGetKindOp]
    simp [hk]
    rfl
  rw [List.map_cons, List.map_append]
  by_cases h0 : len = 0#8
  · subst h0
    obtain rfl : q = [] := by simpa using hq
    rw [execAll_feedByte
      (b := { s.block with idle := 0, cur := 0#8, pk := k, pl := 0#8, rxs := 4#3 }) (o := .incomplete)]
    swap
    · rw [feedByteOp_getLength _ _ rfl, rxGetLengthOp]
      simp
      rfl
    rw [List.map_nil, List.nil_append, List.map_cons, execAll_feedByte
      (b := { s.block with idle := 0, cur := 0#8, pk := k, pl := 0#8, cchk := c, rxs := 5#3 }) (o := .incomplete)]
    swap
    · rw [feedByteOp_getChecksum _ _ rfl (by simp)]
      rfl
    simp [candidateFed, bufWrite, List.replicate]
  · rw [execAll_feedByte
      (b := { s.block with idle := 0, cur := 0#8, pk := k, pl := len, rxs := 3#3 }) (o := .incomplete)]
    swap
    · rw [feedByteOp_getLength _ _ rfl, rxGetLengthOp]
      simp [hl, h0]
      rfl
    have hne : q ≠ [] := by
      rintro rfl
      apply h0
      apply BitVec.eq_of_toNat_eq
      simpa using hq.symm
    rw [execAll_append (feed_payload q _ hne rfl hl (by simpa using hq))]
    rw [List.map_cons, execAll_feedByte
      (b := { s.block with
        idle := 0, cur := len, pk := k, pl := len, pbuf := bufWrite s.block.pbuf 0 q, cchk := c, rxs := 5#3 })
      (o := .incomplete)]
    swap
    · rw [feedByteOp_getChecksum _ _ rfl hl]
      rfl
    simp [candidateFed, payloadFed, hq, List.replicate_succ]
    rw [← List.replicate_succ', List.replicate_succ]

/-- What GetStop finds after a candidate frame: its own payload in PBUF[0..PL). -/
theorem candidate_payload (k len : Byte) (q : List Byte) (c : Byte) (s : State)
    (hl : len.toNat ≤ s.block.pbuf.length) (hq : q.length = len.toNat) :
    (candidateFed k len q c s).block.pbuf.take (candidateFed k len q c s).block.pl.toNat = q := by
  simp only [candidateFed]
  rw [bufWrite_zero _ _ (by omega), ← hq, List.take_left]

end Sys2Proof.Machine
end

