-- ==== Sys2Proof/Laws/PerInstr.lean ====
section
/-! SUPPORT. Statements made per instruction, about the instruction as syntax: one lemma for each constructor. -/

/-- An instruction is a command or a receive row, never both: a row has a value of RXS, and its bytes are those of a
FEED_BYTE, "opcode 0x01" and one operand (41_receive.md R151 to R157). -/
def Sys2Proof.Laws.RowOrCommand.Statement (i : Sys2Proof.Instr) : Prop :=
  i.isCommand = i.rowCode.isNone ∧
    (i.isCommand = false → ∃ x : Sys2Proof.Byte, Sys2Proof.encode i = [0x01#8, x])

namespace Sys2Proof.Laws.RowOrCommand

theorem nop : Statement .nop := ⟨rfl, nofun⟩
theorem feedByte (b : Byte) : Statement (.feedByte b) := ⟨rfl, nofun⟩
theorem encodeFrame (kind len : Byte) (payload : List Byte) : Statement (.encodeFrame kind len payload) := ⟨rfl, nofun⟩
theorem txComplete : Statement .txComplete := ⟨rfl, nofun⟩
theorem readFrame : Statement .readFrame := ⟨rfl, nofun⟩
theorem consume : Statement .consume := ⟨rfl, nofun⟩
theorem reinit : Statement .reinit := ⟨rfl, nofun⟩
theorem tick : Statement .tick := ⟨rfl, nofun⟩
theorem feedBuf (bytes : List Byte) : Statement (.feedBuf bytes) := ⟨rfl, nofun⟩
theorem reserved (opcode : Byte) : Statement (.reserved opcode) := ⟨rfl, nofun⟩
theorem rxWaitStart (b : Byte) : Statement (.rxWaitStart b) := ⟨rfl, fun _ => ⟨b, rfl⟩⟩
theorem rxGetKind (b : Byte) : Statement (.rxGetKind b) := ⟨rfl, fun _ => ⟨b, rfl⟩⟩
theorem rxGetLength (b : Byte) : Statement (.rxGetLength b) := ⟨rfl, fun _ => ⟨b, rfl⟩⟩
theorem rxGetPayload (b : Byte) : Statement (.rxGetPayload b) := ⟨rfl, fun _ => ⟨b, rfl⟩⟩
theorem rxGetChecksum (b : Byte) : Statement (.rxGetChecksum b) := ⟨rfl, fun _ => ⟨b, rfl⟩⟩
theorem rxGetStop (b : Byte) : Statement (.rxGetStop b) := ⟨rfl, fun _ => ⟨b, rfl⟩⟩
theorem rxIllegal6 (b : Byte) : Statement (.rxIllegal6 b) := ⟨rfl, fun _ => ⟨b, rfl⟩⟩
theorem rxIllegal7 (b : Byte) : Statement (.rxIllegal7 b) := ⟨rfl, fun _ => ⟨b, rfl⟩⟩

end Sys2Proof.Laws.RowOrCommand
end

