-- ==== Sys2Proof/Tests/Slice0.lean ====
section
/-! SUPPORT. Tests of one step each, with results taken from 95_test_vectors.md or worked out by hand from the rule
that a test names, and the witnesses of the statements' hypotheses. -/

namespace Sys2Proof.Tests

open Sys2Proof Sys2Proof.Machine

/-! ### Helpers -/

/-- A byte array of `n` bytes that begins with `bytes` and goes on with zeros. -/
def padded (n : Nat) (bytes : List Byte) : List Byte :=
  bytes ++ List.replicate (n - bytes.length) 0#8

/-- The receiver in the middle of a frame, with the default configuration. -/
def receiving (rxs : RxsCode) (cur pk pl : Byte) (p : List Byte) (cchk : Byte) : State :=
  { State.reset with block := { State.reset.block with
      rxs := rxs, cur := cur, pk := pk, pl := pl, pbuf := padded 25 p, cchk := cchk } }

/-- The state after `ENCODE 0x02, 1, [FF]` (E10, first operation), its result not recorded. -/
def busy : State :=
  { State.reset with block := { State.reset.block with
      txbuf := padded 30 [0xAA#8, 0x02#8, 0x01#8, 0xFF#8, 0xFC#8, 0xBC#8], txlen := 6#9, txchk := 0xFC#8
      txb := true } }

/-- The delivered frame of W2, waiting for the host. -/
def delivered : State :=
  { State.reset with block := { State.reset.block with
      prdy := true, dk := 0x01#8, dl := 0x03#8, dbuf := padded 25 [0x10#8, 0x20#8, 0x30#8] } }

/-- A frame in progress (RXS = GetLength) under a timeout of three TICKs (H5), after `n` of them. -/
def ticking (n : Nat) : State :=
  { State.construct { Config.reference with pTimeout := 3 } with
    block := { (State.construct { Config.reference with pTimeout := 3 }).block with rxs := 2#3, idle := n } }

/-- GetKind of an instance that accepts the kinds 00, 01, 02 (V17). -/
def choosy : State :=
  { State.construct { Config.reference with pKindOk := .acceptOnly [0x00#8, 0x01#8, 0x02#8] } with
    block := { (State.construct { Config.reference with pKindOk := .acceptOnly [0x00#8, 0x01#8, 0x02#8] }).block with
      rxs := 1#3 } }

/-- A command stream to be performed. -/
def streaming (bytes : List Byte) (s : State) : State :=
  { s with cmds := bytes }

/-- The block of a next state. -/
def blockOf : Host.Outcome State Fault Refusal → Option Block
  | .next s => some s.block
  | .fault _ => none
  | .refused _ => none

/-- The results of a next state. -/
def retsOf : Host.Outcome State Fault Refusal → Option (List Ret)
  | .next s => some s.rets
  | .fault _ => none
  | .refused _ => none

/-- The bytes 00, 01, 02, ... of E4 and P3. -/
def rising (n : Nat) : List Byte :=
  (List.range n).map (BitVec.ofNat 8)

/-! ### Well-formedness -/

/-- 30_encoding.md R100: ENCODE carries min(L, P_MAX) bytes, so L = 3 with two bytes is no instruction. -/
theorem test_wf_encode_short : (Instr.encodeFrame 0x01#8 0x03#8 [0x10#8, 0x20#8]).wellFormed 25 = false := by decide

/-- R100: L = 26 carries 25 bytes, not 26. -/
theorem test_wf_encode_long :
    (Instr.encodeFrame 0x01#8 0x1A#8 (rising 26)).wellFormed 25 = false ∧
      (Instr.encodeFrame 0x01#8 0x1A#8 (rising 25)).wellFormed 25 = true := by decide

/-- 41_receive.md R161: n is one byte, so 256 bytes are too many. -/
theorem test_wf_feed_buf :
    (Instr.feedBuf (List.replicate 256 0#8)).wellFormed 25 = false ∧
      (Instr.feedBuf (List.replicate 255 0#8)).wellFormed 25 = true := by
  simp only [Instr.wellFormed, List.length_replicate]
  decide

/-- 30_encoding.md R101: the opcodes 0x00 to 0x08 are not reserved. -/
theorem test_wf_reserved :
    (Instr.reserved 0x08#8).wellFormed 25 = false ∧ (Instr.reserved 0x09#8).wellFormed 25 = true := by decide

/-! ### Decoding: the bytes are those of 30_encoding.md R100 and of the programs P1 to P3 -/

theorem test_decode_one_byte_commands :
    decode 25 [0x00#8] = .ok (.nop, []) ∧ decode 25 [0x03#8] = .ok (.txComplete, []) ∧
      decode 25 [0x04#8] = .ok (.readFrame, []) ∧ decode 25 [0x05#8] = .ok (.consume, []) ∧
      decode 25 [0x06#8] = .ok (.reinit, []) ∧ decode 25 [0x07#8] = .ok (.tick, []) := by
  refine ⟨rfl, rfl, rfl, rfl, rfl, rfl⟩

theorem test_decode_feed_byte : decode 25 [0x01#8, 0xAA#8, 0x01#8] = .ok (.feedByte 0xAA#8, [0x01#8]) := rfl

/-- P1's first command. -/
theorem test_decode_encode : decode 25 [0x02#8, 0x01#8, 0x03#8, 0x10#8, 0x20#8, 0x30#8, 0x01#8, 0xAA#8] =
    .ok (.encodeFrame 0x01#8 0x03#8 [0x10#8, 0x20#8, 0x30#8], [0x01#8, 0xAA#8]) := rfl

/-- P3's third command: 02 01 1A and 25 bytes, then the next command's opcode. -/
theorem test_decode_encode_over_bound :
    decode 25 (0x02#8 :: 0x01#8 :: 0x1A#8 :: (rising 25 ++ [0x02#8])) =
      .ok (.encodeFrame 0x01#8 0x1A#8 (rising 25), [0x02#8]) := rfl

/-- P2's fourth command. -/
theorem test_decode_feed_buf : decode 25 [0x08#8, 0x05#8, 0xAA#8, 0x00#8, 0x00#8, 0x00#8, 0xBC#8, 0x04#8] =
    .ok (.feedBuf [0xAA#8, 0x00#8, 0x00#8, 0x00#8, 0xBC#8], [0x04#8]) := rfl

/-- R101: 0x09 and 0xFF are reserved. -/
theorem test_decode_reserved : decode 25 [0x09#8] = .ok (.reserved 0x09#8, []) ∧
    decode 25 [0xFF#8, 0x00#8] = .ok (.reserved 0xFF#8, [0x00#8]) := ⟨rfl, rfl⟩

/-- A stream that ends inside a command is rejected by name (notes/assumptions/5.md). -/
theorem test_decode_truncated : decode 25 [0x02#8, 0x01#8, 0x02#8, 0x10#8] = .error (.truncated 0x02#8) ∧
    decode 25 [0x08#8] = .error (.truncated 0x08#8) ∧ decode 25 [0x01#8] = .error (.truncated 0x01#8) :=
  ⟨rfl, rfl, rfl⟩

/-- 41_receive.md R151 to R157: opcode 0x01 with RXS = 0 to 7 is the row of that number. -/
theorem test_decode_rows :
    decodeUnder 25 0#3 [0x01#8, 0xAA#8] = .ok (.rxWaitStart 0xAA#8, []) ∧
      decodeUnder 25 1#3 [0x01#8, 0xAA#8] = .ok (.rxGetKind 0xAA#8, []) ∧
      decodeUnder 25 2#3 [0x01#8, 0xAA#8] = .ok (.rxGetLength 0xAA#8, []) ∧
      decodeUnder 25 3#3 [0x01#8, 0xAA#8] = .ok (.rxGetPayload 0xAA#8, []) ∧
      decodeUnder 25 4#3 [0x01#8, 0xAA#8] = .ok (.rxGetChecksum 0xAA#8, []) ∧
      decodeUnder 25 5#3 [0x01#8, 0xAA#8] = .ok (.rxGetStop 0xAA#8, []) ∧
      decodeUnder 25 6#3 [0x01#8, 0xAA#8] = .ok (.rxIllegal6 0xAA#8, []) ∧
      decodeUnder 25 7#3 [0x01#8, 0xAA#8] = .ok (.rxIllegal7 0xAA#8, []) := by
  refine ⟨rfl, rfl, rfl, rfl, rfl, rfl, rfl, rfl⟩

/-- The words of spec/opcode_table.json: 8-bit opcodes (an operand byte that a word does not give is 0), 3-bit RXS
values, and an ENCODE with its operands at the bits above its opcode. -/
theorem test_table_words :
    decodeTableWord 8 0x07 = some .tick ∧ decodeTableWord 16 0x0001 = some (.feedByte 0x00#8) ∧
      decodeTableWord 8 0x02 = some (.encodeFrame 0x00#8 0x00#8 []) ∧
      decodeTableWord 40 0x2010020102 = some (.encodeFrame 0x01#8 0x02#8 [0x10#8, 0x20#8]) ∧
      decodeTableWord 3 5 = some (.rxGetStop 0x00#8) ∧ decodeTableWord 8 0x80 = some (.reserved 0x80#8) := by decide

/-- The next step runs the word: TICK, and the row RX.GetPayload, whose CUR < PL fails after reset (R150). -/
theorem test_fetch_word :
    retsOf (step (State.reset.withFetchWord 8 0x07)) = some [.ok] ∧
      retsOf (step (State.reset.withFetchWord 3 3)) = some [.rx (.fault .malformedState)] ∧
      step (State.reset.withFetchWord 8 0x80) = .refused (.reservedOpcode 0x80#8) := by
  refine ⟨by decide, by decide, rfl⟩

/-! ### The transmit path -/

/-- W1. -/
theorem test_encode_w1 :
    (blockOf (exec (.encodeFrame 0x01#8 0x03#8 [0x10#8, 0x20#8, 0x30#8]) State.reset)).map
        (fun b => (b.txbuf.take 8, b.txlen, b.txchk, b.txb, b.trace)) =
      some ([0xAA#8, 0x01#8, 0x03#8, 0x10#8, 0x20#8, 0x30#8, 0x02#8, 0xBC#8], 8#9, 0x02#8, true,
        [.send [0xAA#8, 0x01#8, 0x03#8, 0x10#8, 0x20#8, 0x30#8, 0x02#8, 0xBC#8]]) := by decide

/-- E8: L = 26 with P_MAX = 25, while a frame is being received (H10, R221). -/
theorem test_encode_e8 :
    (blockOf (exec (.encodeFrame 0x01#8 0x1A#8 (rising 25)) (receiving 3#3 1#8 1#8 3#8 [0x10#8] 0#8))).map
        (fun b => ((b.txbuf, b.txlen, b.txb), (b.lerr, b.rxs, b.trace))) =
      some ((List.replicate 30 0#8, 0#9, false), (3#4, 0#3, [.fault .payloadTooLarge .tx])) := by decide

/-- P3: an ENCODE presented while TXB = 1 is held at the head of the stream. -/
theorem test_step_held :
    step (streaming [0x02#8, 0x01#8, 0x00#8] busy) = .next (streaming [0x02#8, 0x01#8, 0x00#8] busy) := rfl

/-- E13 and E12: TXB <- 0, and the retained frame stays. -/
theorem test_tx_complete :
    (blockOf (exec .txComplete busy)).map (fun b => (b.txb, b.txlen, b.txchk)) = some (false, 6#9, 0xFC#8) ∧
      blockOf (exec .txComplete State.reset) = some State.reset.block := by decide

/-! ### The receive path -/

/-- W2, byte 1; V7, byte 1. -/
theorem test_wait_start :
    (blockOf (exec (.rxWaitStart 0xAA#8) (receiving 0#3 7#8 0#8 0#8 [] 0#8))).map (fun b => (b.rxs, b.cur, b.trace)) =
        some (1#3, 0#8, []) ∧
      (blockOf (exec (.rxWaitStart 0x55#8) State.reset)).map (fun b => (b.rxs, b.lerr, b.trace)) =
        some (0#3, 1#4, [.fault .invalidStart .rx]) := by decide

/-- V17, bytes 2 and 4: kind 07 is refused, kind 02 accepted. -/
theorem test_get_kind :
    (blockOf (exec (.rxGetKind 0x07#8) choosy)).map (fun b => (b.rxs, b.pk, b.lerr)) = some (0#3, 0#8, 2#4) ∧
      (blockOf (exec (.rxGetKind 0x02#8) choosy)).map (fun b => (b.rxs, b.pk)) = some (2#3, 0x02#8) := by decide

/-- V2 and V3: 25 is accepted, 26 is not and PL is not written. -/
theorem test_get_length :
    (blockOf (exec (.rxGetLength 0x19#8) (receiving 2#3 0#8 1#8 0#8 [] 0#8))).map (fun b => (b.rxs, b.pl)) =
        some (3#3, 0x19#8) ∧
      (blockOf (exec (.rxGetLength 0x1A#8) (receiving 2#3 0#8 1#8 0#8 [] 0#8))).map (fun b => (b.rxs, b.pl, b.lerr)) =
        some (0#3, 0#8, 3#4) := by decide

/-- V1, byte 3: a length of 0 skips GetPayload. -/
theorem test_get_length_zero :
    (blockOf (exec (.rxGetLength 0x00#8) (receiving 2#3 0#8 0#8 9#8 [] 0#8))).map (fun b => (b.rxs, b.pl)) =
      some (4#3, 0#8) := by decide

/-- W2, bytes 5 and 6. -/
theorem test_get_payload :
    (blockOf (exec (.rxGetPayload 0x20#8) (receiving 3#3 1#8 1#8 3#8 [0x10#8] 0#8))).map
        (fun b => (b.rxs, b.cur, b.pbuf.take 4)) = some (3#3, 2#8, [0x10#8, 0x20#8, 0#8, 0#8]) ∧
      (blockOf (exec (.rxGetPayload 0x30#8) (receiving 3#3 2#8 1#8 3#8 [0x10#8, 0x20#8] 0#8))).map
        (fun b => (b.rxs, b.cur, b.pbuf.take 4)) = some (4#3, 3#8, [0x10#8, 0x20#8, 0x30#8, 0#8]) := by decide

/-- V16: CUR = PL in GetPayload fails the check; nothing is written to PBUF. -/
theorem test_get_payload_malformed :
    (blockOf (exec (.feedByte 0x00#8) (receiving 3#3 2#8 1#8 2#8 [0x10#8, 0x20#8] 0#8))).map
        (fun b => (b.rxs, b.lerr, b.pbuf.take 3, b.trace)) =
      some (0#3, 6#4, [0x10#8, 0x20#8, 0#8], [.fault .malformedState .rx]) := by decide

/-- W2, byte 7. -/
theorem test_get_checksum :
    (blockOf (exec (.rxGetChecksum 0x02#8) (receiving 4#3 3#8 1#8 3#8 [0x10#8, 0x20#8, 0x30#8] 0#8))).map
      (fun b => (b.rxs, b.cchk)) = some (5#3, 0x02#8) := by decide

/-- W2, byte 8. -/
theorem test_get_stop_frame :
    (blockOf (exec (.rxGetStop 0xBC#8) (receiving 5#3 3#8 1#8 3#8 [0x10#8, 0x20#8, 0x30#8] 2#8))).map
        (fun b => ((b.rxs, b.prdy, b.trace), (b.dk, b.dl, b.dbuf.take 4))) =
      some ((0#3, true, [.frameReady 0x01#8 0x03#8 [0x10#8, 0x20#8, 0x30#8]]),
        (0x01#8, 0x03#8, [0x10#8, 0x20#8, 0x30#8, 0#8])) := by decide

/-- W3, byte 8; V8, byte 5: the stop byte is looked at before the checksum. -/
theorem test_get_stop_faults :
    (blockOf (exec (.rxGetStop 0xBC#8) (receiving 5#3 3#8 1#8 3#8 [0x10#8, 0x20#8, 0x30#8] 3#8))).map
        (fun b => (b.rxs, b.prdy, b.lerr)) = some (0#3, false, 4#4) ∧
      (blockOf (exec (.rxGetStop 0xAA#8) (receiving 5#3 3#8 1#8 3#8 [0x10#8, 0x20#8, 0x30#8] 3#8))).map
        (fun b => (b.rxs, b.prdy, b.lerr)) = some (0#3, false, 5#4) := by decide

/-- V15, first byte; the same with 7 (30_encoding.md R96). -/
theorem test_illegal_rows :
    (blockOf (exec (.rxIllegal6 0xAA#8) (receiving 6#3 0#8 0#8 0#8 [] 0#8))).map (fun b => (b.rxs, b.lerr, b.trace)) =
        some (0#3, 6#4, [.fault .malformedState .rx]) ∧
      (blockOf (exec (.rxIllegal7 0xAA#8) (receiving 7#3 0#8 0#8 0#8 [] 0#8))).map (fun b => (b.rxs, b.lerr)) =
        some (0#3, 6#4) := by decide

/-- W2, byte 3, as the command; V15, first byte, as the command. -/
theorem test_feed_byte :
    (blockOf (exec (.feedByte 0x03#8) (receiving 2#3 0#8 1#8 0#8 [] 0#8))).map (fun b => (b.rxs, b.pl)) =
        some (3#3, 3#8) ∧
      retsOf (exec (.feedByte 0xAA#8) (receiving 6#3 0#8 0#8 0#8 [] 0#8)) =
        some [.rx (.fault .malformedState)] := by decide

/-- B1: the bytes after the first frame are not consumed. -/
theorem test_feed_buf_stops :
    retsOf (exec (.feedBuf [0xAA#8, 0x01#8, 0x03#8, 0x10#8, 0x20#8, 0x30#8, 0x02#8, 0xBC#8, 0xAA#8, 0x00#8])
      State.reset) = some [.bulk .frameReady 8] := by decide

/-- B3: a fault does not stop the loop. -/
theorem test_feed_buf_goes_on :
    (blockOf (exec (.feedBuf [0x55#8, 0xAA#8, 0x00#8, 0x00#8, 0x01#8, 0xBC#8]) State.reset)).map
        (fun b => (b.prdy, b.lerr, b.trace)) =
      some (false, 4#4, [.fault .invalidStart .rx, .fault .checksumMismatch .rx]) := by decide

/-! ### The host's operations and the timer -/

/-- H2 and H1. -/
theorem test_read_frame :
    retsOf (exec .readFrame delivered) = some [.frame 0x01#8 0x03#8 [0x10#8, 0x20#8, 0x30#8]] ∧
      retsOf (exec .readFrame State.reset) = some [.notReady] := by decide

/-- H2 and H1: CONSUME keeps the delivered frame. -/
theorem test_consume :
    (blockOf (exec .consume delivered)).map (fun b => (b.prdy, b.dk, b.dl, b.dbuf.take 3)) =
        some (false, 0x01#8, 0x03#8, [0x10#8, 0x20#8, 0x30#8]) ∧
      retsOf (exec .consume State.reset) = some [.notReady] := by decide

/-- H4: TXB, TXLEN and TXBUF are reset. -/
theorem test_reinit :
    (blockOf (exec .reinit busy)).map (fun b => (b.txb, b.txlen, b.txbuf)) =
      some (false, 0#9, List.replicate 30 0#8) := by decide

/-- H5: the second and the third TICK. -/
theorem test_tick :
    (blockOf (exec .tick (ticking 1))).map (fun b => (b.rxs, b.idle, b.trace)) = some (2#3, 2, []) ∧
      (blockOf (exec .tick (ticking 2))).map (fun b => (b.rxs, b.idle, b.lerr, b.trace)) =
        some (0#3, 0, 9#4, [.fault .timeout .tmr]) := by decide

/-- H6 and H9: no count in WaitStart, and none with P_TIMEOUT = 0. -/
theorem test_tick_off :
    blockOf (exec .tick (State.construct { Config.reference with pTimeout := 3 })) =
        some (State.construct { Config.reference with pTimeout := 3 }).block ∧
      blockOf (exec .tick (receiving 1#3 0#8 0#8 0#8 [] 0#8)) = some (receiving 1#3 0#8 0#8 0#8 [] 0#8).block := by
  decide

/-- H11. -/
theorem test_nop : blockOf (exec .nop delivered) = some delivered.block ∧
    retsOf (exec .nop delivered) = some [.ok] := by decide

/-- 30_encoding.md R101. -/
theorem test_reserved : exec (.reserved 0x09#8) State.reset = .refused (.reservedOpcode 0x09#8) := rfl

/-! ### The clock and the written form -/

/-- H13: READ_FRAME comes before CONSUME. -/
theorem test_cycle_read_consume :
    (cycleOutputs { Inputs.quiet with rdReq := true, consume := true } delivered.block).rdOk = true ∧
      (cycleBlock { Inputs.quiet with rdReq := true, consume := true } delivered.block).prdy = false := by decide

/-- H16's cycle: InvalidStop, PayloadTooLarge, and a TICK that finds WaitStart. -/
theorem test_cycle_h16 :
    let b : Block := { (State.construct { Config.reference with pTimeout := 2 }).block with
      rxs := 5#3, pk := 1#8, cchk := 1#8, idle := 1 }
    let c := cycleBlock { Inputs.quiet with rxValid := true, txReq := true, txLen := 26#8, tick := true } b
    (c.lerr, c.rxs, c.idle, c.trace) =
      (3#4, 0#3, 0, [Event.fault .invalidStop .rx, .fault .payloadTooLarge .tx]) := by decide

/-- The first line of P1. -/
theorem test_written_form :
    writtenForm (.encodeFrame 0x01#8 0x03#8 [0x10#8, 0x20#8, 0x30#8]) = some "ENCODE 0x01, 0x03, [10 20 30]" := by
  decide

/-- 30_encoding.md R104: FEED_FRAME with W1's kind and payload feeds W1's wire bytes. -/
theorem test_feed_frame :
    (Pseudo.feedFrame 0x01#8 [0x10#8, 0x20#8, 0x30#8]).expand Config.reference =
      [0xAA#8, 0x01#8, 0x03#8, 0x10#8, 0x20#8, 0x30#8, 0x02#8, 0xBC#8].map .feedByte := by decide

/-! ### Witnesses: states and operands that meet the hypotheses of the statements -/

/-- A receiver that fails no check, with a transmit frame retained and TXB = 1, in every receive state. -/
def midway (rxs : RxsCode) (cur pl : Byte) : State :=
  { busy with block := { busy.block with rxs := rxs, cur := cur, pk := 0x01#8, pl := pl } }

/-- An event of every kind. -/
def oneOfEach : List Event :=
  [.fault .payloadTooLarge .tx, .fault .timeout .tmr, .fault .invalidStop .rx, .frameReady 0x01#8 0x01#8 [0xFF#8],
    .send [0xAA#8]]

/-- A system: the Host holds `ops`, the Transport has one TX_COMPLETE to give. -/
def systemOf (ops : List Instr) (s : State) : System where
  state := s
  bulk := none
  hostOps := ops
  bytes := [0xAA#8]
  completes := 1
  ticks := 1

/-- A reserved opcode in the Host's queue: the Host stays at it (30_encoding.md R101; notes/assumptions/13.md). -/
theorem test_reserved_in_queue :
    hostMove (systemOf [.reserved 0x09#8, .nop] busy) = systemOf [.reserved 0x09#8, .nop] busy := rfl

theorem witness_DecodeOfEncodedCommand :
    (Instr.encodeFrame 0x01#8 0x00#8 []).wellFormed 25 = true ∧
      (Instr.encodeFrame 0x01#8 0x19#8 (rising 25)).wellFormed 25 = true ∧
      (Instr.encodeFrame 0x01#8 0xFF#8 (rising 25)).wellFormed 25 = true ∧ (Instr.feedBuf []).wellFormed 0 = true ∧
      (Instr.reserved 0x09#8).wellFormed 255 = true ∧ (Instr.reserved 0xFF#8).isCommand = true := by decide

theorem witness_EncodeOfDecodedCommand :
    decode 0 [0x02#8, 0x01#8, 0xFF#8, 0x07#8] = .ok (.encodeFrame 0x01#8 0xFF#8 [], [0x07#8]) ∧
      decode 25 [0x08#8, 0x00#8] = .ok (.feedBuf [], []) := ⟨rfl, rfl⟩

theorem witness_RowDecodesUnderItsReceiveState :
    (Instr.rxWaitStart 0xAA#8).rowCode = some 0#3 ∧ (Instr.rxIllegal7 0xAA#8).rowCode = some 7#3 := by decide

theorem witness_ReservedOpcodeTakesNoStep :
    9 ≤ (0x09#8 : Byte).toNat ∧ (streaming [0x09#8, 0x00#8] State.reset).cmds = 0x09#8 :: [0x00#8] ∧
      9 ≤ (0xFF#8 : Byte).toNat := by decide

theorem witness_StepPerformsTheNextCommand :
    (decode (streaming [0x00#8] State.reset).block.cfg.pMax (streaming [0x00#8] State.reset).cmds = .ok (.nop, []) ∧
      held .nop State.reset.block = false) ∧
    (decode (streaming [0x02#8, 0x00#8, 0x00#8] busy).block.cfg.pMax (streaming [0x02#8, 0x00#8, 0x00#8] busy).cmds =
        .ok (.encodeFrame 0x00#8 0x00#8 [], []) ∧ held (.encodeFrame 0x00#8 0x00#8 []) busy.block = true) ∧
    State.reset.cmds = [] := ⟨⟨rfl, rfl⟩, ⟨rfl, rfl⟩, rfl⟩

theorem witness_WellFormedProgramIsNeverRefused :
    programOk 25 [.tick, .encodeFrame 0x01#8 0x01#8 [0xFF#8]] ∧
      (streaming [0x07#8, 0x02#8, 0x01#8, 0x01#8, 0xFF#8] State.reset).cmds =
        encodeProgram [.tick, .encodeFrame 0x01#8 0x01#8 [0xFF#8]] := by
  refine ⟨fun i hi => ?_, rfl⟩
  simp only [List.mem_cons, List.not_mem_nil, or_false] at hi
  rcases hi with rfl | rfl <;> exact ⟨by decide, rfl, fun _ h => nomatch h⟩

/-- TXB = 1; L = P_MAX + 1; L = P_MAX; L = 0. -/
theorem witness_EncodeFollowsItsRule :
    busy.block.txb = true ∧ State.reset.block.txb = false ∧
      State.reset.block.cfg.pMax.val < (0x1A#8 : Byte).toNat ∧
      (0x19#8 : Byte).toNat ≤ State.reset.block.cfg.pMax.val ∧ (0x19#8 : Byte).toNat ≤ (rising 25).length ∧
      (0x00#8 : Byte).toNat ≤ ([] : List Byte).length ∧
      State.reset.block.txbuf.length = State.reset.block.cfg.pMax.val + 5 := by decide

theorem witness_TransmitBufferLayout : ∃ t, exec (.encodeFrame 0x01#8 0x19#8 (rising 25)) State.reset = .next t :=
  ⟨_, rfl⟩

theorem witness_RetainedFrameKeptUntilEncodeOrReinit :
    (∃ t, exec (.encodeFrame 0x01#8 0x1A#8 []) State.reset = .next t) ∧
      State.reset.block.cfg.pMax.val < (0x1A#8 : Byte).toNat ∧ ∃ t, exec .tick busy = .next t :=
  ⟨⟨_, rfl⟩, by decide, ⟨_, rfl⟩⟩

theorem witness_BusyFlagChangesOnlyByItsOperations :
    (∃ t, exec (.encodeFrame 0x01#8 0x19#8 (rising 25)) State.reset = .next t ∧ t.block.txb = true) ∧
      (∃ t, exec .txComplete busy = .next t ∧ t.block.txb = false) ∧
      ∃ t, exec .reinit busy = .next t ∧ t.block.txb = false :=
  ⟨⟨_, rfl, rfl⟩, ⟨_, rfl, rfl⟩, ⟨_, rfl, rfl⟩⟩

/-- A state that fails WF by RXS, one by PL, one by CUR; and one at the boundary that passes. -/
theorem witness_FeedByteIsTheSelectedRow_FeedByteInMalformedState :
    ¬ receiveWf (receiving 6#3 0#8 0#8 0#8 [] 0#8).block ∧ ¬ receiveWf (receiving 5#3 0#8 0#8 0x1A#8 [] 0#8).block ∧
      ¬ receiveWf (receiving 3#3 2#8 1#8 2#8 [] 0#8).block ∧ receiveWf (receiving 3#3 24#8 1#8 25#8 [] 0#8).block := by
  unfold receiveWf
  decide

theorem witness_FeedByteInWaitStart : State.reset.block.rxs = 0#3 ∧ 0xAA#8 = State.reset.block.cfg.pStart ∧
    0xAB#8 ≠ State.reset.block.cfg.pStart := by decide

theorem witness_FeedByteInGetKind : choosy.block.rxs = 1#3 ∧ kindOk choosy.block.cfg 0x02#8 = true ∧
    kindOk choosy.block.cfg 0x03#8 = false ∧ State.reset.block.cfg.pKindOk = .acceptAll ∧
    choosy.block.cfg.pKindOk = .acceptOnly [0x00#8, 0x01#8, 0x02#8] := by decide

/-- L = 0, L = 1, L = P_MAX, L = P_MAX + 1. -/
theorem witness_FeedByteInGetLength :
    (receiving 2#3 0#8 1#8 0#8 [] 0#8).block.rxs = 2#3 ∧ (0x01#8 : Byte) ≠ 0#8 ∧
      (0x19#8 : Byte).toNat ≤ (receiving 2#3 0#8 1#8 0#8 [] 0#8).block.cfg.pMax.val ∧
      (receiving 2#3 0#8 1#8 0#8 [] 0#8).block.cfg.pMax.val < (0x1A#8 : Byte).toNat := by decide

/-- The last payload byte of the longest frame, and the one before. -/
theorem witness_FeedByteInGetPayload :
    let s := receiving 3#3 24#8 1#8 25#8 [] 0#8
    let r := receiving 3#3 23#8 1#8 25#8 [] 0#8
    (s.block.rxs = 3#3 ∧ s.block.pl.toNat ≤ s.block.cfg.pMax.val ∧ s.block.cur.toNat < s.block.pl.toNat ∧
      s.block.cur.toNat + 1 = s.block.pl.toNat) ∧ r.block.cur.toNat + 1 < r.block.pl.toNat := by decide

theorem witness_FeedByteInGetChecksum :
    let s := receiving 4#3 25#8 1#8 25#8 [] 0#8
    s.block.rxs = 4#3 ∧ s.block.pl.toNat ≤ s.block.cfg.pMax.val := by decide

/-- The empty payload with its own checksum and with another (V19), and a wrong stop byte. -/
theorem witness_FeedByteInGetStop :
    let s := receiving 5#3 0#8 0#8 0#8 [] 0#8
    let r := receiving 5#3 0#8 0#8 0#8 [] 1#8
    (s.block.rxs = 5#3 ∧ s.block.pl.toNat ≤ s.block.cfg.pMax.val ∧ Memory.wf s.block = true) ∧
      0xBC#8 = s.block.cfg.pStop ∧ 0xBD#8 ≠ s.block.cfg.pStop ∧
      chk s.block.cfg (s.block.pk :: s.block.pl :: []) = s.block.cchk ∧
      chk r.block.cfg (r.block.pk :: r.block.pl :: []) ≠ r.block.cchk := by decide

theorem witness_IllegalRowsRaiseMalformedState :
    (receiving 6#3 0#8 0#8 0#8 [] 0#8).block.rxs = 6#3 ∧ (receiving 7#3 0#8 0#8 0#8 [] 0#8).block.rxs = 7#3 := by
  decide

theorem witness_UnselectedRowTakesNoStep :
    (Instr.rxGetStop 0xBC#8).rowCode = some 5#3 ∧ State.reset.block.rxs ≠ 5#3 := by decide

theorem witness_PayloadWritesStayInBounds :
    ∃ t, exec (.feedByte 0x30#8) (receiving 3#3 24#8 1#8 25#8 [] 0#8) = .next t ∧
      t.block.pbuf[24]? ≠ (receiving 3#3 24#8 1#8 25#8 [] 0#8).block.pbuf[24]? := ⟨_, rfl, by decide⟩

/-- A byte that completes a frame, and one that does not. -/
theorem witness_FeedBufIsTheLoop :
    (∃ b, exec (.feedByte 0xBC#8) (receiving 5#3 0#8 0#8 0#8 [] 0#8) =
      .next { receiving 5#3 0#8 0#8 0#8 [] 0#8 with block := b, rets := [.rx .frameReady] }) ∧
    (∃ b, exec (.feedByte 0xAA#8) State.reset =
        .next { State.reset with block := b, rets := [.rx .incomplete] } ∧
      ∃ c, exec (.feedBuf [0x01#8]) { State.reset with block := b } =
        .next { State.reset with block := c, rets := [.bulk .incomplete 1] }) :=
  ⟨⟨_, rfl⟩, ⟨_, rfl, ⟨_, rfl⟩⟩⟩

/-- Also the hypotheses of GarbageIsDiscardedBeforeAFrame, with no garbage and with the byte before P_START. -/
theorem witness_RoundTripDeliversTheEncodedFrame :
    State.reset.block.txb = false ∧ Memory.wf State.reset.block = true ∧
      (0x19#8 : Byte).toNat ≤ State.reset.block.cfg.pMax.val ∧ (0x19#8 : Byte).toNat ≤ (rising 25).length ∧
      (rising 25).length = (0x19#8 : Byte).toNat ∧ kindOk State.reset.block.cfg 0x01#8 = true ∧
      State.reset.block.rxs = 0#3 ∧ ∀ x ∈ [0xA9#8, 0xBC#8], x ≠ State.reset.block.cfg.pStart := by decide

/-- V10 from reset: bit 0 of payload byte 0, and bit 7 of the last one. The checksum is XOR, so the two differ. -/
theorem witness_FlippedPayloadBitIsSeenByTheChecksum :
    let r := State.reset
    let p : List Byte := [0x10#8, 0x20#8, 0x30#8]
    (r.block.rxs = 0#3 ∧ Memory.wf r.block = true ∧ kindOk r.block.cfg 0x01#8 = true ∧
      (0x03#8 : Byte).toNat ≤ r.block.cfg.pMax.val ∧ p.length = (0x03#8 : Byte).toNat ∧ r.block.cfg.pChk = .xorAll) ∧
    (p[0]? = some 0x10#8 ∧ 0 < 8 ∧ p.set 0 (0x10#8 ^^^ BitVec.twoPow 8 0) = [0x11#8, 0x20#8, 0x30#8] ∧
      chk r.block.cfg (0x01#8 :: 0x03#8 :: [0x11#8, 0x20#8, 0x30#8]) ≠ chk r.block.cfg (0x01#8 :: 0x03#8 :: p)) ∧
    p[2]? = some 0x30#8 ∧ 7 < 8 ∧ p.set 2 (0x30#8 ^^^ BitVec.twoPow 8 7) = [0x10#8, 0x20#8, 0xB0#8] := by decide

/-- The case in which the checksums agree. With XOR it never arises, and what an external function answers is a free
value, so that it arises is the hypothesis here and can be no closed fact: for a function that answers the same on
`01 01 00` and on `01 01 01` (bit 0 of the payload byte flipped), the clause's hypothesis holds, and so do the others
in the state constructed with that function. -/
theorem witness_FlippedPayloadBit_checksums_agree
    (h : Config.checksumHook 0 [0x01#8, 0x01#8, 0x01#8] = Config.checksumHook 0 [0x01#8, 0x01#8, 0x00#8]) :
    let r := State.construct { Config.reference with pChk := .hook 0 }
    let p : List Byte := [0x00#8]
    let q : List Byte := [0x01#8]
    (r.block.rxs = 0#3 ∧ Memory.wf r.block = true ∧ kindOk r.block.cfg 0x01#8 = true ∧
      (0x01#8 : Byte).toNat ≤ r.block.cfg.pMax.val ∧ p.length = (0x01#8 : Byte).toNat ∧ p[0]? = some 0x00#8 ∧
      q = p.set 0 (0x00#8 ^^^ BitVec.twoPow 8 0)) ∧
    chk r.block.cfg (0x01#8 :: 0x01#8 :: q) = chk r.block.cfg (0x01#8 :: 0x01#8 :: p) :=
  ⟨by decide, congrArg (BitVec.ofInt 8) h⟩

theorem witness_StalledFrameIsHeld :
    (receiving 1#3 0#8 0#8 0#8 [] 0#8).block.cfg.pTimeout = 0 ∧
      ∃ t, execAll [.tick, .tick, .encodeFrame 0x01#8 0x00#8 []] (receiving 1#3 0#8 0#8 0#8 [] 0#8) = .next t :=
  ⟨rfl, ⟨_, rfl⟩⟩

theorem witness_ReadFrame_Consume : delivered.block.prdy = true ∧ State.reset.block.prdy = false := by decide

/-- The timeout off; WaitStart; IDLE + 1 below P_TIMEOUT = 3; IDLE + 1 at it. -/
theorem witness_TickCountsAndTimesOut :
    State.reset.block.cfg.pTimeout = 0 ∧ State.reset.block.rxs = 0#3 ∧ (ticking 1).block.cfg.pTimeout ≠ 0 ∧
      (ticking 1).block.rxs ≠ 0#3 ∧ (ticking 1).block.idle + 1 < (ticking 1).block.cfg.pTimeout ∧
      (ticking 2).block.cfg.pTimeout ≤ (ticking 2).block.idle + 1 := by decide

theorem witness_RepeatedHostOperationIsIdempotent :
    ∃ t u, exec .consume delivered = .next t ∧ exec .consume t = .next u := ⟨_, _, rfl, rfl⟩

theorem witness_PayloadReadyChangesOnlyByItsOperations :
    (∃ t, exec (.feedByte 0xBC#8) (receiving 5#3 0#8 0#8 0#8 [] 0#8) = .next t ∧ t.block.prdy = true) ∧
      (∃ t, exec .consume delivered = .next t ∧ t.block.prdy = false) ∧
      ∃ t, exec .reinit delivered = .next t ∧ t.block.prdy = false :=
  ⟨⟨_, rfl, rfl⟩, ⟨_, rfl, rfl⟩, ⟨_, rfl, rfl⟩⟩

/-- A byte in the middle of a frame while another is delivered. -/
theorem witness_DeliveredFrameChangesOnlyAtFrameReady :
    ∃ t, exec (.feedByte 0xAA#8) delivered = .next t ∧
      ∀ k len p, Event.frameReady k len p ∉ t.block.trace.drop delivered.block.trace.length :=
  ⟨_, rfl, fun _ _ _ h => nomatch h⟩

theorem witness_AtMostOneFaultPerOperation :
    (∃ t, exec (.feedByte 0x55#8) State.reset = .next t) ∧ (∃ t, exec .tick (ticking 2) = .next t) ∧
      ∃ t, exec .consume delivered = .next t := ⟨⟨_, rfl⟩, ⟨_, rfl⟩, ⟨_, rfl⟩⟩

/-- A trace with an event of every kind, LERR at Timeout, and a FEED_BYTE to perform. -/
theorem witness_StepEmitsOnlyListedEvents :
    let s : State := { State.reset with
      block := { State.reset.block with trace := oneOfEach, lerr := 9#4 }, cmds := [0x01#8, 0x55#8] }
    Memory.wf s.block = true ∧ (∀ e ∈ s.block.trace, e.legal = true) ∧ lerrLegal s.block ∧ ∃ t, step s = .next t :=
  ⟨by decide, by decide, .inr ⟨.timeout, rfl, rfl⟩, ⟨_, rfl⟩⟩

theorem witness_TraceOnlyGrows_ConfigurationNeverChanges :
    (∃ t, exec .reinit busy = .next t) ∧ ∃ t, step (streaming [0x06#8] busy) = .next t := ⟨⟨_, rfl⟩, ⟨_, rfl⟩⟩

/-- The invariant, while TXB = 1, in GetPayload at its last byte; and steps from there. Its arrays' lengths are the
hypothesis of ArraysKeepTheirLengths. -/
theorem witness_Invariant :
    BlockInv (midway 3#3 24#8 25#8).block ∧
      (∃ t, step (streaming [0x01#8, 0x10#8] (midway 3#3 24#8 25#8)) = .next t) ∧
      ∃ t, exec (.feedByte 0x10#8) (midway 3#3 24#8 25#8) = .next t :=
  ⟨{ arrays := by decide, state_legal := by decide, length_bounded := by decide, cursor_bounded := by decide
     cursor_reset := by decide, payload_open := by decide, payload_full := by decide
     delivered_bounded := by decide, sent_length := fun _ => ⟨0x01#8, by decide, by decide⟩
     sent_frame := by decide, idle_off := by decide, idle_waiting := by decide, idle_bounded := by decide },
   ⟨_, rfl⟩, ⟨_, rfl⟩⟩

/-- FEED_BYTE, FEED_BUF and TICK; ENCODE with and without its fault, and TX_COMPLETE. -/
theorem witness_TheTwoPaths :
    (∃ t, exec (.feedByte 0x10#8) (midway 3#3 24#8 25#8) = .next t) ∧
      (∃ t, exec (.feedBuf [0x10#8]) (midway 3#3 24#8 25#8) = .next t) ∧ (∃ t, exec .tick (ticking 2) = .next t) ∧
      (∃ t, exec (.encodeFrame 0x01#8 0x1A#8 []) State.reset = .next t ∧
        t.block.trace.drop State.reset.block.trace.length = [.fault .payloadTooLarge .tx]) ∧
      (∃ t, exec (.encodeFrame 0x01#8 0x00#8 []) State.reset = .next t ∧
        t.block.trace.drop State.reset.block.trace.length = [.send [0xAA#8, 0x01#8, 0x00#8, 0x01#8, 0xBC#8]]) ∧
      ∃ t, exec .txComplete busy = .next t :=
  ⟨⟨_, rfl⟩, ⟨_, rfl⟩, ⟨_, rfl⟩, ⟨_, rfl, by decide⟩, ⟨_, rfl, by decide⟩, ⟨_, rfl⟩⟩

/-- A held ENCODE; every agent but the Transport moves in the schedule. -/
theorem witness_HeldEncode :
    let y := systemOf [.encodeFrame 0x01#8 0x00#8 [], .nop] busy
    y.bulk = none ∧ y.hostOps = .encodeFrame 0x01#8 0x00#8 [] :: [.nop] ∧ y.state.block.txb = true ∧
      y.completes = 0 + 1 ∧ ∀ a ∈ [Agent.host, .byteSource, .timer, .host], a ≠ .transport := by decide

theorem witness_FeedBufIsItsFeedBytes :
    let y := systemOf [.feedBuf [0xAA#8, 0x01#8], .nop] State.reset
    y.bulk = none ∧ y.hostOps = .feedBuf [0xAA#8, 0x01#8] :: [.nop] := by decide

theorem witness_InstancesAreIndependent : (0 : Nat) ≠ 1 ∧ [State.reset, delivered][1]? = some delivered ∧
    (∃ t, exec .consume delivered = .next t) ∧
    performAt 1 .consume [State.reset, delivered] ≠ [State.reset, delivered] :=
  ⟨by decide, rfl, ⟨_, rfl⟩, by decide⟩

/-- H13, H14, H15: the requests and the flags that the clauses ask for. -/
theorem witness_SameCycleOrderOfRequests :
    let i : Inputs := { Inputs.quiet with
      rdReq := true, consume := true, rxValid := true, rxByte := 0xBC#8, txDone := true, txReq := true }
    let b : Block := { busy.block with rxs := 5#3, pk := 0x01#8, cchk := 0x01#8, prdy := true }
    i.rst = false ∧ i.reinit = false ∧ i.rdReq = true ∧ b.prdy = true ∧ i.consume = true ∧ i.rxValid = true ∧
      (cycleOutputs i b).frameReady = true ∧ i.txDone = true ∧ i.txReq = true ∧ Inputs.quiet.rxValid = false := by
  decide

theorem witness_ResetCyclePerformsNothing : ({ Inputs.quiet with rst := true, tick := true } : Inputs).rst = true :=
  rfl

/-- FEED_BYTE with each kind of outcome's hypothesis; ENCODE granted and not granted; TICK with and without an event. -/
theorem witness_PortsShowTheResultOfARequest :
    (∃ t, exec (.feedByte 0xAA#8) State.reset = .next t ∧ t.rets = State.reset.rets ++ [.rx .incomplete]) ∧
      (rising 25).length = State.reset.block.cfg.pMax.val ∧ busy.block.txb = true ∧
      (∃ t, exec (.encodeFrame 0x01#8 0x1A#8 (rising 25)) State.reset = .next t ∧
        t.rets = State.reset.rets ++ [.fault .payloadTooLarge]) ∧
      (∃ t, exec .tick (ticking 1) = .next t ∧ t.block.trace = (ticking 1).block.trace) ∧
      (∃ t, exec .tick (ticking 2) = .next t ∧ t.block.trace ≠ (ticking 2).block.trace) ∧
      Inputs.quiet.rxValid = false ∧ Inputs.quiet.txReq = false ∧ Inputs.quiet.rdReq = false ∧
      Inputs.quiet.tick = false ∧ (rising 25)[24]? = some 0x18#8 :=
  ⟨⟨_, rfl, rfl⟩, by decide, rfl, ⟨_, rfl, rfl⟩, ⟨_, rfl, by decide⟩, ⟨_, rfl, by decide⟩, rfl, rfl, rfl, rfl, rfl⟩

theorem witness_CommandLengthsAreGiven :
    (Instr.encodeFrame 0x01#8 0x19#8 (rising 25)).wellFormed 25 = true ∧
      (Instr.encodeFrame 0x01#8 0x1A#8 (rising 25)).wellFormed 25 = true := by decide

/-- Every hypothesis of ClockCycleIsTheOrderedSequence: rst = 0. -/
theorem witness_ClockCycleIsTheOrderedSequence :
    ({ Inputs.quiet with rxValid := true, txReq := true, tick := true } : Inputs).rst = false := rfl

end Sys2Proof.Tests
end

namespace Sys2Proof.Machine

/-! ## The state's invariant (10_state.md R50, R34, R30)

`BlockInv` is kept by each operation of the block, and from there by every instruction, every step and every
schedule. -/

/-! ### The cursor of each receive state -/

/-- What R34 and items 3 and 4 of R50 say of CUR and PL, read off the receive state. -/
def CursorOk (cur pl : Byte) : RxState → Prop
  | .waitStart => cur.toNat ≤ pl.toNat
  | .getKind => cur = 0#8
  | .getLength => cur = 0#8
  | .getPayload => cur.toNat < pl.toNat
  | .getChecksum => cur = pl
  | .getStop => cur = pl

theorem CursorOk.le {cur pl : Byte} {st : RxState} (h : CursorOk cur pl st) : cur.toNat ≤ pl.toNat := by
  cases st
  case waitStart => exact h
  case getKind => rw [show cur = 0#8 from h]; exact Nat.zero_le _
  case getLength => rw [show cur = 0#8 from h]; exact Nat.zero_le _
  case getPayload => exact Nat.le_of_lt h
  case getChecksum => rw [show cur = pl from h]
  case getStop => rw [show cur = pl from h]

theorem RxState.code_le_five (st : RxState) : st.code.toNat ≤ 5 := by
  cases st <;> decide

theorem RxState.code_inj {st st' : RxState} : st.code = st'.code ↔ st = st' := by
  cases st <;> cases st' <;> decide

/-- The invariant as the receiver moves on: the receive registers, LERR and the trace may take any values that meet the
clauses of the new receive state `st`, with IDLE at 0. -/
theorem BlockInv.enter {b : Block} (h : BlockInv b) (st : RxState) {cur pk pl cchk : Byte} {pbuf : List Byte}
    {lerr : Code4} {trace : List Event} (hpbuf : pbuf.length = b.pbuf.length)
    (hpl : pl.toNat ≤ b.cfg.pMax.val) (hcur : CursorOk cur pl st) :
    BlockInv { b with
      idle := 0, rxs := st.code, cur := cur, pk := pk, pl := pl, pbuf := pbuf, cchk := cchk, lerr := lerr
      trace := trace } :=
  { h with
    arrays := by
      have hw := (memory_wf_iff b).1 h.arrays
      exact (memory_wf_iff _).2 ⟨hpbuf.trans hw.1, hw.2⟩
    state_legal := st.code_le_five
    length_bounded := hpl
    cursor_bounded := hcur.le
    cursor_reset := by
      rintro (e | e) <;> obtain rfl := RxState.code_inj.1 e <;> exact hcur
    payload_open := by
      intro e
      obtain rfl := RxState.code_inj.1 e
      exact hcur
    payload_full := by
      rintro (e | e) <;> obtain rfl := RxState.code_inj.1 e <;> exact hcur
    idle_off := fun _ => rfl
    idle_waiting := fun _ => rfl
    idle_bounded := Nat.zero_le _ }

/-! ### The operations of the block -/

theorem BlockInv.construct (c : Config) : BlockInv (Block.construct c) where
  arrays := construct_memory_wf c
  state_legal := Nat.zero_le _
  length_bounded := Nat.zero_le _
  cursor_bounded := Nat.le_refl _
  cursor_reset := fun _ => rfl
  payload_open := fun e => absurd e (by decide : ¬ 0#3 = RxState.getPayload.code)
  payload_full := fun _ => rfl
  delivered_bounded := fun _ => Nat.zero_le _
  sent_length := nofun
  sent_frame := nofun
  idle_off := fun _ => rfl
  idle_waiting := fun _ => rfl
  idle_bounded := Nat.zero_le _

/-- REINIT leaves the constructed block with the trace kept (70_reset_and_hazards.md R252). -/
theorem reinitOp_eq_construct (b : Block) : reinitOp b = { Block.construct b.cfg with trace := b.trace } := rfl

theorem BlockInv.reinitOp (b : Block) : BlockInv (reinitOp b) :=
  { BlockInv.construct b.cfg with }

theorem BlockInv.raiseFault {b : Block} (h : BlockInv b) (code : FaultKind) (src : FaultSource) :
    BlockInv (raiseFault code src b) :=
  h.enter .waitStart rfl h.length_bounded h.cursor_bounded

theorem BlockInv.clearIdle {b : Block} (h : BlockInv b) : BlockInv (clearIdle b) :=
  { h with idle_off := fun _ => rfl, idle_waiting := fun _ => rfl, idle_bounded := Nat.zero_le _ }

theorem BlockInv.clearBusy {b : Block} (h : BlockInv b) : BlockInv (clearBusy b) :=
  { h with sent_length := nofun, sent_frame := nofun }

theorem BlockInv.clearReady {b : Block} (h : BlockInv b) : BlockInv (clearReady b) :=
  { h with delivered_bounded := nofun }

theorem BlockInv.latchFrame {b : Block} (h : BlockInv b) : BlockInv (latchFrame b) :=
  { h with
    arrays := by
      rw [memory_wf_iff]
      simpa using (memory_wf_iff b).1 h.arrays
    delivered_bounded := fun _ => h.length_bounded }

/-- FEED_BYTE keeps the invariant: each of its transitions enters a receive state whose cursor clause it sets up. -/
theorem BlockInv.feedByteOp {b : Block} (h : BlockInv b) (x : Byte) : BlockInv (feedByteOp x b).1 := by
  rcases feedByteOp_cases x b with ⟨code, _, _, e⟩ | ⟨_, _, e⟩ | ⟨hr, _, e⟩ | ⟨hr, hx, e⟩ | ⟨hr, hx, hle, e⟩ |
    ⟨_, hl, hc, e⟩ | ⟨hr, hl, e⟩ | ⟨_, hl, _, _, e⟩ <;> rw [e]
  · exact h.clearIdle.raiseFault code .rx
  · exact h.enter .getKind rfl h.length_bounded rfl
  · exact h.enter .getLength rfl h.length_bounded (h.cursor_reset (.inl hr))
  · have hcur : b.cur = x := (h.cursor_reset (.inr hr)).trans hx.symm
    exact h.enter .getChecksum rfl (by simp [hx]) hcur
  · have hcur : b.cur.toNat < x.toNat := by
      rw [h.cursor_reset (.inr hr)]
      exact Nat.pos_of_ne_zero fun h0 => hx (BitVec.eq_of_toNat_eq h0)
    exact h.enter .getPayload rfl hle hcur
  · have hs := cursor_succ_toNat hc
    split
    · next hlast => exact h.enter .getChecksum (List.length_set ..) hl ((cursor_succ_eq_iff hc).2 hlast)
    · next hmore =>
      exact h.enter .getPayload (List.length_set ..) hl (show (b.cur + 1#8).toNat < b.pl.toNat by omega)
  · exact h.enter .getStop rfl hl (h.payload_full (.inl hr))
  · exact h.latchFrame.enter .waitStart rfl hl h.cursor_bounded

theorem BlockInv.tickOp {b : Block} (h : BlockInv b) : BlockInv (tickOp b) := by
  rcases tickOp_cases b with ⟨_, e⟩ | ⟨hon, hbusy, hlt, e⟩ | ⟨_, _, _, e⟩ <;> rw [e]
  · exact h
  · exact { h with
      idle_off := fun h0 => absurd h0 hon
      idle_waiting := fun h0 => absurd h0 hbusy
      idle_bounded := Nat.le_of_lt hlt }
  · exact h.raiseFault .timeout .tmr

/-! ### The retained frame (item 6 of R50) -/

theorem frameBytes_getElem?_checksum (c : Config) (k len : Byte) (p : List Byte) (x : Byte) :
    (frameBytes c k len p x)[p.length + 3]? = some x := by
  simp [frameBytes]

theorem frameBytes_getElem?_stop (c : Config) (k len : Byte) (p : List Byte) (x : Byte) :
    (frameBytes c k len p x)[p.length + 4]? = some c.pStop := by
  simp [frameBytes]

/-- Where a frame fits TXBUF, storing it puts the frame's byte at each of its indices (20_memory.md R71). -/
theorem storeFrame_txbuf_getElem? {k len : Byte} {p : List Byte} {b : Block}
    (hfit : p.length + 5 ≤ b.txbuf.length) {j : Nat} (hj : j < p.length + 5) :
    (storeFrame k len p b).txbuf[j]? = (frameOf b.cfg k len p)[j]? := by
  rw [storeFrame_txbuf, bufWrite_getElem?, frameOf_length, if_pos (by omega), Nat.sub_zero]

/-- A stored frame that fits meets item 6 of R50, busy or not. -/
theorem storeFrame_sent {k len : Byte} {p : List Byte} {b : Block} (hp : p.length = len.toNat)
    (hfit : len.toNat + 5 ≤ b.txbuf.length) :
    let c := storeFrame k len p b
    c.txlen.toNat = len.toNat + 5 ∧ c.txbuf[0]? = some b.cfg.pStart ∧ c.txbuf[2]? = some len ∧
      c.txbuf[c.txlen.toNat - 1]? = some b.cfg.pStop ∧ c.txbuf[c.txlen.toNat - 2]? = some c.txchk := by
  have hlen : (storeFrame k len p b).txlen.toNat = len.toNat + 5 := frameLength_toNat len
  have hat : ∀ j < p.length + 5, (storeFrame k len p b).txbuf[j]? = (frameOf b.cfg k len p)[j]? :=
    fun j hj => storeFrame_txbuf_getElem? (hp ▸ hfit) hj
  refine ⟨hlen, ?_, ?_, ?_, ?_⟩
  · rw [hat 0 (by omega)]
    rfl
  · rw [hat 2 (by omega)]
    rfl
  · rw [hlen, ← hp]
    exact (hat (p.length + 4) (by omega)).trans (frameBytes_getElem?_stop ..)
  · rw [hlen, ← hp]
    exact (hat (p.length + 3) (by omega)).trans (frameBytes_getElem?_checksum ..)

theorem BlockInv.encodeOp {b : Block} (h : BlockInv b) (k len : Byte) (p : List Byte) :
    BlockInv (encodeOp k len p b).1 := by
  have hw := encodeOp_memory_wf k len p b h.arrays
  rcases encodeOp_cases k len p b with ⟨_, e⟩ | ⟨hl, e⟩ <;> rw [e] at hw ⊢
  · exact h.raiseFault .payloadTooLarge .tx
  · obtain ⟨-, -, htx⟩ := (memory_wf_iff b).1 h.arrays
    obtain ⟨hlen, hstart, hlb, hstop, hchk⟩ :=
      storeFrame_sent (k := k) (b := b) (payloadOperand_length len p) (by omega)
    exact { h with
      arrays := hw
      sent_length := fun _ => ⟨len, hlb, hlen⟩
      sent_frame := fun _ => ⟨hstart, hstop, hchk⟩ }

/-! ### Instructions, steps and schedules -/

/-- Every instruction keeps the invariant. -/
theorem BlockInv.exec {i : Instr} {s t : State} (h : BlockInv s.block) (he : exec i s = .next t) :
    BlockInv t.block :=
  exec_lift (R := fun a b => BlockInv a → BlockInv b) (fun _ => id) (fun _ _ _ hab hbc => hbc ∘ hab)
    (fun x _ hb => hb.feedByteOp x) (fun k len p _ _ hb => hb.encodeOp k len p) (fun _ hb => hb.clearBusy)
    (fun _ hb => hb.clearReady) (fun b _ => BlockInv.reinitOp b) (fun _ hb => hb.tickOp) he h

/-- A step that answers a next state is idle or held, or it performs one instruction. -/
theorem step_cases {s t : State} (h : step s = .next t) :
    t = s ∨ ∃ (i : Instr) (rest : List Byte), exec i (afterFetch rest s) = .next t := by
  unfold step at h
  split at h
  · exact .inl (Host.Outcome.next.inj h).symm
  · cases h
  · next i rest _ =>
    split at h
    · exact .inl (Host.Outcome.next.inj h).symm
    · exact .inr ⟨i, rest, h⟩

/-- A property of the block that every instruction keeps is kept by every step. -/
theorem step_keeps {P : Block → Prop}
    (hexec : ∀ {i : Instr} {s t : State}, P s.block → exec i s = .next t → P t.block) {s t : State}
    (hs : P s.block) (h : step s = .next t) : P t.block := by
  rcases step_cases h with rfl | ⟨i, rest, he⟩
  · exact hs
  · exact hexec (s := afterFetch rest s) hs he

/-- Settles O47: the invariant is carried through each operation of the block. -/
theorem invariantIsKeptByEveryStep : Obligations.InvariantIsKeptByEveryStep :=
  ⟨fun _ _ hs h => step_keeps BlockInv.exec hs h, fun _ _ _ hs h => hs.exec h⟩

section Schedules

variable {P : Block → Prop} (hexec : ∀ {i : Instr} {s t : State}, P s.block → exec i s = .next t → P t.block)
include hexec

/-- `perform` keeps what every instruction keeps; a refused instruction changes nothing. -/
theorem perform_keeps (i : Instr) {s : State} (hs : P s.block) : P (perform i s).block := by
  unfold perform
  split
  · next he => exact hexec hs he
  · exact hs
  · exact hs

/-- One turn of a FEED_BUF in progress is a FEED_BYTE or its return. -/
theorem bulkMove_keeps (u : Bulk) {y : System} (hy : P y.state.block) : P (bulkMove u y).state.block := by
  have hfeed : ∀ x, P (feedByteOp x y.state.block).1 := fun x =>
    hexec (i := .feedByte x) (s := y.state)
      (t := { y.state with
        block := (feedByteOp x y.state.block).1
        rets := y.state.rets ++ [.rx (feedByteOp x y.state.block).2] }) hy rfl
  unfold bulkMove
  split
  · exact hy
  · next x xs _ =>
    dsimp only
    split
    · exact hfeed x
    · split <;> exact hfeed x

theorem hostMove_keeps {y : System} (hy : P y.state.block) : P (hostMove y).state.block := by
  unfold hostMove
  split
  · next u _ => exact bulkMove_keeps hexec u hy
  · split
    · exact hy
    · next bytes ops _ => exact bulkMove_keeps hexec ⟨bytes, 0⟩ (y := { y with hostOps := ops }) hy
    · exact hy
    · next i _ _ _ _ =>
      split
      · exact hy
      · exact perform_keeps hexec i hy

/-- One turn of any agent keeps what every instruction keeps. -/
theorem move_keeps (a : Agent) {y : System} (hy : P y.state.block) : P (move a y).state.block := by
  cases a
  case host => exact hostMove_keeps hexec hy
  case byteSource =>
    simp only [move, byteSourceMove]
    split
    exacts [hy, perform_keeps hexec _ hy]
  case transport =>
    simp only [move, transportMove]
    split
    exacts [hy, perform_keeps hexec _ hy]
  case timer =>
    simp only [move, timerMove]
    split
    exacts [hy, perform_keeps hexec _ hy]

/-- A property of the block that every instruction keeps holds after every schedule. -/
theorem runSchedule_keeps (sched : List Agent) {y : System} (hy : P y.state.block) :
    P (runSchedule sched y).state.block := by
  induction sched generalizing y with
  | nil => exact hy
  | cons a as ih => exact ih (move_keeps hexec a hy)

end Schedules

/-- Settles O48, by induction on the schedule: each turn is an instruction, a byte of a FEED_BUF, or nothing. -/
theorem invariantIsKeptByEverySchedule : Obligations.InvariantIsKeptByEverySchedule :=
  fun sched _ hy => runSchedule_keeps BlockInv.exec sched hy

/-- Settles O46: every register's reset value meets its clause of the invariant. -/
theorem invariantHoldsAfterConstruction : Obligations.InvariantHoldsAfterConstruction :=
  BlockInv.construct

/-- Settles O45: both sides set every register to its reset value. -/
theorem constructionAndReinitAgree : Obligations.ConstructionAndReinitAgree := by
  refine ⟨fun c => ⟨rfl, rfl, ?_⟩, fun s => ?_⟩
  · rintro b rfl
    exact ⟨rfl, rfl, rfl, rfl, rfl, rfl, rfl, rfl, rfl, rfl, rfl, rfl, rfl, rfl, rfl, rfl⟩
  · rw [← reinitOp_eq_construct]
    rfl

end Sys2Proof.Machine

namespace Sys2Proof.Machine

/-! ## What each register can change by (10_state.md R31, R36, R38, R39, R43, R44, R51)

What every instruction keeps, or changes only together with an event, is proved of the block's operations and lifted to
the instructions. -/

/-! ### The configuration and the array lengths -/

theorem tickOp_keeps (b : Block) :
    (tickOp b).cfg = b.cfg ∧ (tickOp b).txb = b.txb ∧ (tickOp b).txbuf = b.txbuf ∧
    (tickOp b).txlen = b.txlen ∧ (tickOp b).txchk = b.txchk := by
  rcases tickOp_cases b with ⟨_, e⟩ | ⟨_, _, _, e⟩ | ⟨_, _, _, e⟩ <;> rw [e] <;> exact ⟨rfl, rfl, rfl, rfl, rfl⟩

theorem encodeOp_cfg (k len : Byte) (p : List Byte) (b : Block) : (encodeOp k len p b).1.cfg = b.cfg := by
  rcases encodeOp_cases k len p b with ⟨_, e⟩ | ⟨_, e⟩ <;> rw [e] <;> rfl

/-- No instruction writes the configuration (10_state.md R31). -/
theorem exec_cfg {i : Instr} {s t : State} (h : exec i s = .next t) : t.block.cfg = s.block.cfg :=
  exec_lift (R := fun a b => b.cfg = a.cfg) (fun _ => rfl) (fun _ _ _ hab hbc => hbc.trans hab)
    (fun x b => (feedByteOp_keeps x b).1) (fun k len p b _ => encodeOp_cfg k len p b) (fun _ => rfl) (fun _ => rfl)
    (fun _ => rfl) (fun b => (tickOp_keeps b).1) h

/-- Settles O44: no instruction writes the configuration, so no step does. -/
theorem configurationNeverChanges : Obligations.ConfigurationNeverChanges :=
  fun s _ h => step_keeps (P := fun b => b.cfg = s.block.cfg) (fun hs he => (exec_cfg he).trans hs) rfl h

/-- Settles O49: each operation of the block keeps the arrays' lengths. -/
theorem arraysKeepTheirLengths : Obligations.ArraysKeepTheirLengths :=
  fun _ _ _ hs h =>
    exec_lift (R := fun a b => Memory.wf a = true → Memory.wf b = true) (fun _ => id)
      (fun _ _ _ hab hbc => hbc ∘ hab) feedByteOp_memory_wf (fun k len p b _ => encodeOp_memory_wf k len p b)
      (fun _ => id) (fun _ => id) (fun b _ => construct_memory_wf b.cfg) tickOp_memory_wf h hs

/-! ### PBUF -/

/-- FEED_BYTE leaves PBUF alone, or writes it at CUR in GetPayload with CUR < PL <= P_MAX. -/
theorem feedByteOp_pbuf_cases (x : Byte) (b : Block) :
    (feedByteOp x b).1.pbuf = b.pbuf ∨
    (b.rxs = 3#3 ∧ b.cur.toNat < b.pl.toNat ∧ b.pl.toNat ≤ b.cfg.pMax.val ∧
      (feedByteOp x b).1.pbuf = b.pbuf.set b.cur.toNat x) := by
  rcases feedByteOp_cases x b with ⟨_, _, _, e⟩ | ⟨_, _, e⟩ | ⟨_, _, e⟩ | ⟨_, _, e⟩ | ⟨_, _, _, e⟩ |
    ⟨hr, hl, hc, e⟩ | ⟨_, _, e⟩ | ⟨_, _, _, _, e⟩ <;> rw [e]
  case inr.inr.inr.inr.inr.inl => exact .inr ⟨hr, hc, hl, rfl⟩
  all_goals exact .inl rfl

/-- Settles O25: only GetPayload's transition writes PBUF, and `List.set` at CUR changes no other index. -/
theorem payloadWritesStayInBounds : Obligations.PayloadWritesStayInBounds := by
  intro s t x h
  obtain rfl := Host.Outcome.next.inj h
  show (feedByteOp x s.block).1.pbuf.length = s.block.pbuf.length ∧
    ∀ j : Nat, (feedByteOp x s.block).1.pbuf[j]? ≠ s.block.pbuf[j]? → _
  rcases feedByteOp_pbuf_cases x s.block with e | ⟨hr, hc, hl, e⟩ <;> rw [e]
  · exact ⟨rfl, fun j hj => absurd rfl hj⟩
  · refine ⟨List.length_set .., fun j hj => ⟨?_, hr, hc, hl⟩⟩
    by_contra hne
    exact hj (List.getElem?_set_ne (Ne.symm hne))

/-! ### The transmit registers -/

/-- TXB, TXBUF, TXLEN and TXCHK are the same in both blocks. -/
def SameTransmit (a b : Block) : Prop :=
  b.txb = a.txb ∧ b.txbuf = a.txbuf ∧ b.txlen = a.txlen ∧ b.txchk = a.txchk

theorem SameTransmit.refl (b : Block) : SameTransmit b b :=
  ⟨rfl, rfl, rfl, rfl⟩

theorem SameTransmit.trans {a b c : Block} (hab : SameTransmit a b) (hbc : SameTransmit b c) : SameTransmit a c := by
  obtain ⟨h1, h2, h3, h4⟩ := hab
  obtain ⟨g1, g2, g3, g4⟩ := hbc
  exact ⟨g1.trans h1, g2.trans h2, g3.trans h3, g4.trans h4⟩

theorem feedBufOp_sameTransmit (bs : List Byte) (n : Nat) (b : Block) : SameTransmit b (feedBufOp bs n b).1 :=
  feedBufOp_lift SameTransmit.refl (fun _ _ _ => SameTransmit.trans) (fun x b => (feedByteOp_keeps x b).2) bs n b

/-- What an instruction can do to the transmit registers. -/
theorem exec_transmit_cases {i : Instr} {s t : State} (h : exec i s = .next t) :
    SameTransmit s.block t.block ∨
    (∃ k len p, i = .encodeFrame k len p ∧ s.block.txb = false ∧ len.toNat ≤ s.block.cfg.pMax.val) ∨
    (i = .txComplete ∧ t.block = { s.block with txb := false }) ∨
    (i = .reinit ∧ t.block = reinitOp s.block) := by
  rcases exec_block_cases h with e | ⟨_, x, e⟩ | ⟨bs, _, e⟩ | ⟨k, len, p, hi, hb, e⟩ | ⟨hi, e⟩ | ⟨_, e⟩ | ⟨hi, e⟩ |
    ⟨_, e⟩
  · exact .inl (e ▸ SameTransmit.refl _)
  · exact .inl (e ▸ (feedByteOp_keeps x s.block).2)
  · exact .inl (e ▸ feedBufOp_sameTransmit bs 0 s.block)
  · rcases encodeOp_cases k len p s.block with ⟨_, eo⟩ | ⟨hl, _⟩
    · rw [eo] at e
      exact .inl (e ▸ SameTransmit.refl _)
    · exact .inr (.inl ⟨k, len, p, hi, hb, hl⟩)
  · exact .inr (.inr (.inl ⟨hi, e⟩))
  · exact .inl (e ▸ SameTransmit.refl _)
  · exact .inr (.inr (.inr ⟨hi, e⟩))
  · exact .inl (e ▸ (tickOp_keeps s.block).2)

/-- Settles O12: TX_COMPLETE writes TXB alone, and the other two writers are the exceptions. -/
theorem retainedFrameKeptUntilEncodeOrReinit : Obligations.RetainedFrameKeptUntilEncodeOrReinit := by
  intro i s t h hreinit hencode
  rcases exec_transmit_cases h with ⟨-, hkept⟩ | ⟨k, len, p, hi, hb, hl⟩ | ⟨_, e⟩ | ⟨hi, _⟩
  · exact hkept
  · rcases hencode k len p hi with hbusy | hlong
    · simp [hb] at hbusy
    · omega
  · rw [e]
    exact ⟨rfl, rfl, rfl⟩
  · exact absurd hi hreinit

/-- Settles O13: a successful ENCODE finds TXB = 0, and TX_COMPLETE and REINIT leave TXB = 0. -/
theorem busyFlagChangesOnlyByItsOperations : Obligations.BusyFlagChangesOnlyByItsOperations := by
  intro i s t h
  rcases exec_transmit_cases h with ⟨htxb, -⟩ | ⟨k, len, p, hi, hb, hl⟩ | ⟨hi, e⟩ | ⟨hi, e⟩
  · rw [htxb]
    exact ⟨fun h0 h1 => by simp [h0] at h1, fun h1 h0 => by simp [h1] at h0⟩
  · exact ⟨fun _ _ => ⟨k, len, p, hi, hl⟩, fun h1 => by simp [hb] at h1⟩
  · exact ⟨fun _ h1 => by simp [e] at h1, fun _ _ => .inl hi⟩
  · exact ⟨fun _ h1 => by simp [e] at h1, fun _ _ => .inr hi⟩

/-! ### The delivered frame and the trace -/

/-- The trace grows, PRDY stays set, and without a new FrameReady event PRDY, DK, DL and DBUF are as before. -/
structure DeliveryStep (a b : Block) : Prop where
  trace_prefix : a.trace <+: b.trace
  ready_stays : a.prdy = true → b.prdy = true
  kept : (∀ k len p, Event.frameReady k len p ∉ b.trace.drop a.trace.length) →
    b.prdy = a.prdy ∧ b.dk = a.dk ∧ b.dl = a.dl ∧ b.dbuf = a.dbuf

/-- A step that leaves the delivered frame as it is and appends any events. -/
theorem DeliveryStep.of_same {a b : Block} (ht : a.trace <+: b.trace)
    (hs : b.prdy = a.prdy ∧ b.dk = a.dk ∧ b.dl = a.dl ∧ b.dbuf = a.dbuf) : DeliveryStep a b :=
  ⟨ht, fun hp => hs.1.trans hp, fun _ => hs⟩

theorem DeliveryStep.refl (b : Block) : DeliveryStep b b :=
  .of_same (List.prefix_refl _) ⟨rfl, rfl, rfl, rfl⟩

/-- The events of two steps are those of the first and then those of the second, so where neither half of the trace
has a FrameReady both steps keep the delivered frame. -/
theorem DeliveryStep.trans {a b c : Block} (hab : DeliveryStep a b) (hbc : DeliveryStep b c) : DeliveryStep a c where
  trace_prefix := hab.trace_prefix.trans hbc.trace_prefix
  ready_stays := hbc.ready_stays ∘ hab.ready_stays
  kept := by
    obtain ⟨es, hes⟩ := hab.trace_prefix
    obtain ⟨fs, hfs⟩ := hbc.trace_prefix
    intro hno
    have hnew : c.trace.drop a.trace.length = es ++ fs := by
      rw [← hfs, ← hes, List.append_assoc, List.drop_left]
    have h1 := hab.kept fun k len p hm => hno k len p <| by
      rw [← hes, List.drop_left] at hm
      rw [hnew]
      exact List.mem_append_left fs hm
    have h2 := hbc.kept fun k len p hm => hno k len p <| by
      rw [← hfs, List.drop_left] at hm
      rw [hnew]
      exact List.mem_append_right es hm
    obtain ⟨p1, k1, l1, d1⟩ := h1
    obtain ⟨p2, k2, l2, d2⟩ := h2
    exact ⟨p2.trans p1, k2.trans k1, l2.trans l1, d2.trans d1⟩

/-- Only the delivery of GetStop writes the delivered frame, and it emits the FrameReady event. -/
theorem feedByteOp_deliveryStep (x : Byte) (b : Block) : DeliveryStep b (feedByteOp x b).1 := by
  rcases feedByteOp_cases x b with ⟨_, _, _, e⟩ | ⟨_, _, e⟩ | ⟨_, _, e⟩ | ⟨_, _, e⟩ | ⟨_, _, _, e⟩ | ⟨_, _, _, e⟩ |
    ⟨_, _, e⟩ | ⟨_, _, _, _, e⟩ <;> rw [e]
  case inl => exact .of_same (List.prefix_append ..) ⟨rfl, rfl, rfl, rfl⟩
  case inr.inr.inr.inr.inr.inr.inr =>
    exact ⟨List.prefix_append .., fun _ => rfl,
      fun hno => absurd (by simp) (hno b.pk b.pl (b.pbuf.take b.pl.toNat))⟩
  all_goals exact .of_same (List.prefix_refl _) ⟨rfl, rfl, rfl, rfl⟩

theorem encodeOp_deliveryStep (k len : Byte) (p : List Byte) (b : Block) :
    DeliveryStep b (encodeOp k len p b).1 := by
  rcases encodeOp_cases k len p b with ⟨_, e⟩ | ⟨_, e⟩ <;> rw [e] <;>
    exact .of_same (List.prefix_append ..) ⟨rfl, rfl, rfl, rfl⟩

theorem tickOp_deliveryStep (b : Block) : DeliveryStep b (tickOp b) := by
  rcases tickOp_cases b with ⟨_, e⟩ | ⟨_, _, _, e⟩ | ⟨_, _, _, e⟩ <;> rw [e]
  · exact .refl b
  · exact .of_same (List.prefix_refl _) ⟨rfl, rfl, rfl, rfl⟩
  · exact .of_same (List.prefix_append ..) ⟨rfl, rfl, rfl, rfl⟩

/-- What an instruction can do to the delivered frame and the trace. -/
theorem exec_delivery_cases {i : Instr} {s t : State} (h : exec i s = .next t) :
    DeliveryStep s.block t.block ∨
    (i = .consume ∧ t.block = { s.block with prdy := false }) ∨
    (i = .reinit ∧ t.block = reinitOp s.block) := by
  rcases exec_block_cases h with e | ⟨_, x, e⟩ | ⟨bs, _, e⟩ | ⟨k, len, p, _, _, e⟩ | ⟨_, e⟩ | hc | hr | ⟨_, e⟩
  · exact .inl (e ▸ .refl _)
  · exact .inl (e ▸ feedByteOp_deliveryStep x s.block)
  · exact .inl (e ▸ feedBufOp_lift .refl (fun _ _ _ => .trans) feedByteOp_deliveryStep bs 0 s.block)
  · exact .inl (e ▸ encodeOp_deliveryStep k len p s.block)
  · exact .inl (e ▸ .of_same (List.prefix_refl _) ⟨rfl, rfl, rfl, rfl⟩)
  · exact .inr (.inl hc)
  · exact .inr (.inr hr)
  · exact .inl (e ▸ tickOp_deliveryStep s.block)

/-- Settles O38: without a FrameReady event PRDY does not rise, and only CONSUME and REINIT clear it. -/
theorem payloadReadyChangesOnlyByItsOperations : Obligations.PayloadReadyChangesOnlyByItsOperations := by
  intro i s t h
  rcases exec_delivery_cases h with hd | ⟨hi, e⟩ | ⟨hi, e⟩
  · refine ⟨fun h0 h1 => ?_, fun h1 h0 => ?_⟩
    · by_contra hno
      have hkept := (hd.kept fun k len p hm => hno ⟨k, len, p, hm⟩).1
      simp [h0, h1] at hkept
    · simp [hd.ready_stays h1] at h0
  · exact ⟨fun _ h1 => by simp [e] at h1, fun _ _ => .inl hi⟩
  · exact ⟨fun _ h1 => by simp [e] at h1, fun _ _ => .inr hi⟩

/-- Settles O39: CONSUME writes PRDY alone, and every other instruction but REINIT is a `DeliveryStep`. -/
theorem deliveredFrameChangesOnlyAtFrameReady : Obligations.DeliveredFrameChangesOnlyAtFrameReady := by
  intro i s t h hreinit hno
  rcases exec_delivery_cases h with hd | ⟨_, e⟩ | ⟨hi, _⟩
  · exact (hd.kept hno).2
  · rw [e]
    exact ⟨rfl, rfl, rfl⟩
  · exact absurd hi hreinit

/-! ### The results -/

/-- An instruction that answers a next state is held or unselected, or it returns one result. -/
theorem exec_rets_cases {i : Instr} {s t : State} (h : exec i s = .next t) :
    t = s ∨ ∃ r, t.rets = s.rets ++ [r] := by
  have answered : ∀ r : Block × Ret, exec i s = answer r s → t = s ∨ ∃ r, t.rets = s.rets ++ [r] := by
    intro r he
    obtain rfl := Host.Outcome.next.inj (he.symm.trans h)
    exact .inr ⟨r.2, rfl⟩
  have stays : exec i s = .next s → t = s ∨ ∃ r, t.rets = s.rets ++ [r] := fun he =>
    .inl (Host.Outcome.next.inj (he.symm.trans h)).symm
  have row : ∀ c, i.rowCode = some c → t = s ∨ ∃ r, t.rets = s.rets ++ [r] := by
    intro c hc
    rcases exec_row i c hc s with ⟨_, he⟩ | ⟨_, _, _, he⟩
    · exact stays he
    · exact answered _ he
  cases i
  case nop => exact answered _ rfl
  case feedByte x => exact answered _ rfl
  case encodeFrame k len p =>
    cases hb : s.block.txb
    · exact answered (encodeOp k len p s.block) (by simp [exec, execEncodeFrame, hb])
    · exact stays (by simp [exec, execEncodeFrame, hb])
  case txComplete => exact answered _ rfl
  case readFrame => exact answered _ rfl
  case consume => exact answered _ rfl
  case reinit => exact answered _ rfl
  case tick => exact answered _ rfl
  case feedBuf bs => exact answered _ rfl
  case reserved op => cases h
  all_goals exact row _ rfl

/-- No instruction takes an event out of the trace (10_state.md R51). -/
theorem exec_trace_prefix {i : Instr} {s t : State} (h : exec i s = .next t) :
    s.block.trace <+: t.block.trace := by
  rcases exec_delivery_cases h with hd | ⟨_, e⟩ | ⟨_, e⟩
  · exact hd.trace_prefix
  · rw [e]
  · rw [e, reinitOp_trace]

/-- Settles O43: an instruction appends events, and one result or none. -/
theorem traceOnlyGrows : Obligations.TraceOnlyGrows := by
  refine fun i s t h => ⟨exec_trace_prefix h, ?_⟩
  rcases exec_rets_cases h with rfl | ⟨r, hr⟩
  · exact List.prefix_refl _
  · rw [hr]
    exact List.prefix_append ..

end Sys2Proof.Machine

namespace Sys2Proof.Machine

/-! ## The two paths, the agents and the instances (20_memory.md) -/

/-! ### A held ENCODE (R83) -/

/-- The Host and the Transport stand where they stood in `y`, and the transmit registers are those of `y`. -/
structure HeldSince (y z : System) : Prop where
  bulk : z.bulk = y.bulk
  hostOps : z.hostOps = y.hostOps
  completes : z.completes = y.completes
  transmit : SameTransmit y.state.block z.state.block

theorem HeldSince.refl (y : System) : HeldSince y y :=
  ⟨rfl, rfl, rfl, SameTransmit.refl _⟩

theorem HeldSince.trans {x y z : System} (hxy : HeldSince x y) (hyz : HeldSince y z) : HeldSince x z :=
  ⟨hyz.bulk.trans hxy.bulk, hyz.hostOps.trans hxy.hostOps, hyz.completes.trans hxy.completes,
    hxy.transmit.trans hyz.transmit⟩

/-- A Host whose next operation is a held ENCODE passes its turn. -/
theorem hostMove_held {y : System} {k len : Byte} {p : List Byte} {ops : List Instr} (hbulk : y.bulk = none)
    (hops : y.hostOps = .encodeFrame k len p :: ops) (hbusy : y.state.block.txb = true) : hostMove y = y := by
  simp [hostMove, hbulk, hops, held, hbusy]

/-- A byte of the Byte source leaves the Host, the Transport and the transmit registers alone. -/
theorem byteSourceMove_heldSince (y : System) : HeldSince y (byteSourceMove y) := by
  unfold byteSourceMove
  split
  · exact .refl y
  · next x _ _ => exact ⟨rfl, rfl, rfl, (feedByteOp_keeps x y.state.block).2⟩

/-- A TICK of the Timer leaves them alone as well. -/
theorem timerMove_heldSince (y : System) : HeldSince y (timerMove y) := by
  unfold timerMove
  split
  · exact .refl y
  · exact ⟨rfl, rfl, rfl, (tickOp_keeps y.state.block).2⟩

/-- While an ENCODE is held, a turn of any agent but the Transport keeps it held. -/
theorem move_heldSince {y : System} {k len : Byte} {p : List Byte} {ops : List Instr} (hbulk : y.bulk = none)
    (hops : y.hostOps = .encodeFrame k len p :: ops) (hbusy : y.state.block.txb = true) {a : Agent}
    (ha : a ≠ .transport) : HeldSince y (move a y) := by
  cases a
  case host =>
    rw [move, hostMove_held hbulk hops hbusy]
    exact .refl y
  case byteSource => exact byteSourceMove_heldSince y
  case transport => exact absurd rfl ha
  case timer => exact timerMove_heldSince y

/-- The hold lasts as long as the Transport does not move. -/
theorem runSchedule_heldSince {y : System} {k len : Byte} {p : List Byte} {ops : List Instr} (hbulk : y.bulk = none)
    (hops : y.hostOps = .encodeFrame k len p :: ops) (hbusy : y.state.block.txb = true) {sched : List Agent}
    (hsched : ∀ a ∈ sched, a ≠ .transport) : HeldSince y (runSchedule sched y) := by
  induction sched generalizing y with
  | nil => exact .refl y
  | cons a as ih =>
    obtain ⟨ha, has⟩ := List.forall_mem_cons.1 hsched
    have hm := move_heldSince hbulk hops hbusy ha
    exact hm.trans
      (ih (hm.bulk.trans hbulk) (hm.hostOps.trans hops) (hm.transmit.1.trans hbusy) has)

/-- Settles O52: the hold is an invariant of every turn in which the Transport does not move. -/
theorem heldEncodeWaitsForTheTransport : Obligations.HeldEncodeWaitsForTheTransport := by
  rintro sched y k len p ops hbulk hops hbusy hsched z rfl
  obtain ⟨hb, ho, hc, htxb, hframe⟩ := runSchedule_heldSince hbulk hops hbusy hsched
  exact ⟨ho, hb.trans hbulk, hc, htxb.trans hbusy, hframe⟩

/-! ### The layout of TXBUF (R71) -/

theorem exec_encodeFrame_of_idle {s : State} (hidle : s.block.txb = false) (k len : Byte) (p : List Byte) :
    exec (.encodeFrame k len p) s = answer (encodeOp k len p s.block) s := by
  simp [exec, execEncodeFrame, hidle]

theorem exec_encodeFrame_of_busy {s : State} (hbusy : s.block.txb = true) (k len : Byte) (p : List Byte) :
    exec (.encodeFrame k len p) s = .next s := by
  simp [exec, execEncodeFrame, hbusy]

/-- A successful ENCODE leaves in TXBUF the frame that `storeFrame` writes. -/
theorem exec_encodeFrame_txbuf {s t : State} {k len : Byte} {p : List Byte} (hidle : s.block.txb = false)
    (hl : len.toNat ≤ s.block.cfg.pMax.val) (h : exec (.encodeFrame k len p) s = .next t) :
    t.block.txbuf = (storeFrame k len (payloadOperand len p) s.block).txbuf := by
  rw [exec_encodeFrame_of_idle hidle] at h
  obtain rfl := Host.Outcome.next.inj h
  rcases encodeOp_cases k len p s.block with ⟨hlong, _⟩ | ⟨_, e⟩
  · omega
  · rw [e]
    rfl

theorem frameOf_getElem?_payload (c : Config) (k len : Byte) {p : List Byte} {j : Nat} (hj : j < p.length) :
    (frameOf c k len p)[3 + j]? = p[j]? := by
  rw [Nat.add_comm]
  exact List.getElem?_append_left hj

theorem frameOf_getElem?_checksum (c : Config) (k : Byte) {len : Byte} {p : List Byte} (hp : p.length = len.toNat) :
    (frameOf c k len p)[3 + len.toNat]? = some (chk c (k :: len :: p)) := by
  rw [← hp, Nat.add_comm]
  exact frameBytes_getElem?_checksum ..

theorem frameOf_getElem?_stop (c : Config) (k : Byte) {len : Byte} {p : List Byte} (hp : p.length = len.toNat) :
    (frameOf c k len p)[4 + len.toNat]? = some c.pStop := by
  rw [← hp, Nat.add_comm]
  exact frameBytes_getElem?_stop ..

/-- Storing a frame leaves every byte behind it as it was. -/
theorem storeFrame_txbuf_getElem?_beyond {k len : Byte} {p : List Byte} {b : Block} {j : Nat}
    (hj : p.length + 5 ≤ j) : (storeFrame k len p b).txbuf[j]? = b.txbuf[j]? := by
  rw [storeFrame_txbuf, bufWrite_getElem?, frameOf_length, if_neg (by omega)]

/-- Settles O10: each index of TXBUF lies in one field of the stored frame, or behind it. -/
theorem transmitBufferLayout : Obligations.TransmitBufferLayout := by
  intro s t k len p hidle hl hp hbuf h
  rw [exec_encodeFrame_txbuf hidle hl h, payloadOperand_eq_take len p hp]
  have hq : (p.take len.toNat).length = len.toNat := List.length_take_of_le hp
  have hat : ∀ j < len.toNat + 5, (storeFrame k len (p.take len.toNat) s.block).txbuf[j]? =
      (frameOf s.block.cfg k len (p.take len.toNat))[j]? := fun j hj =>
    storeFrame_txbuf_getElem? (by omega) (by omega)
  refine ⟨hat 0 (by omega), hat 1 (by omega), hat 2 (by omega), fun j hj => ?_, ?_, ?_, fun j hj => ?_, ?_⟩
  · rw [hat (3 + j) (by omega), frameOf_getElem?_payload _ _ _ (hq.symm ▸ hj), List.getElem?_take_of_lt hj]
  · exact (hat (3 + len.toNat) (by omega)).trans (frameOf_getElem?_checksum _ _ hq)
  · exact (hat (4 + len.toNat) (by omega)).trans (frameOf_getElem?_stop _ _ hq)
  · exact storeFrame_txbuf_getElem?_beyond (by omega)
  · exact bufWrite_length ..

/-! ### Idempotence (R78) -/

theorem consumeOp_consumeOp (b : Block) : (consumeOp (consumeOp b).1).1 = (consumeOp b).1 := by
  simp only [consumeOp_fst]

theorem txCompleteOp_txCompleteOp (b : Block) : (txCompleteOp (txCompleteOp b).1).1 = (txCompleteOp b).1 := by
  simp only [txCompleteOp_eq]

/-- REINIT's values depend on the configuration alone, which it does not write. -/
theorem reinitOp_reinitOp (b : Block) : reinitOp (reinitOp b) = reinitOp b := rfl

/-- Settles O37: READ_FRAME and NOP write nothing, and what each of the others writes the second time stands there
already. -/
theorem repeatedHostOperationIsIdempotent : Obligations.RepeatedHostOperationIsIdempotent := by
  intro i hi s t u hst htu
  simp only [List.mem_cons, List.not_mem_nil, or_false] at hi
  rcases hi with rfl | rfl | rfl | rfl | rfl <;> obtain rfl := Host.Outcome.next.inj hst <;>
    obtain rfl := Host.Outcome.next.inj htu
  · rfl
  · exact consumeOp_consumeOp s.block
  · exact txCompleteOp_txCompleteOp s.block
  · exact reinitOp_reinitOp s.block
  · rfl

/-! ### Operations that do not depend on some registers (R80) -/

/-- An operation on the block commutes with a change `f` of it: what it does and returns does not depend on the
registers that `f` writes, and it leaves them as `f` wrote them. -/
def Ignores {ρ : Type} (f : Block → Block) (op : Block → Block × ρ) : Prop :=
  ∀ b, op (f b) = (f (op b).1, (op b).2)

/-- An instruction that answers by an operation on the block does not depend on what the operation ignores. -/
theorem Ignores.exec_withBlock {ρ : Type} {f : Block → Block} {op : Block → Block × ρ} (hop : Ignores f op)
    (ret : ρ → Ret) {i : Instr} {s t : State}
    (hi : ∀ b, b = s.block ∨ b = f s.block →
      exec i (s.withBlock b) = answer ((op b).1, ret (op b).2) (s.withBlock b))
    (h : exec i s = .next t) : exec i (s.withBlock (f s.block)) = .next (t.withBlock (f t.block)) := by
  obtain rfl := Host.Outcome.next.inj ((hi s.block (.inl rfl)).symm.trans h)
  rw [hi _ (.inr rfl), hop]
  rfl

/-- A choice by a condition that `f` does not change, between operations that ignore `f`. -/
theorem Ignores.ite {ρ : Type} {f : Block → Block} {c : Block → Prop} [DecidablePred c] {op op' : Block → Block × ρ}
    (hc : ∀ b, c (f b) ↔ c b) (hop : Ignores f op) (hop' : Ignores f op') :
    Ignores f fun b => if c b then op b else op' b := by
  intro b
  simp only [hc, hop b, hop' b]
  split <;> rfl

section Transmit

variable (c : Block)

theorem rxFault_ignores_tx (code : FaultKind) : Ignores (·.withTx c) (rxFault code) :=
  fun _ => rfl

theorem rxWaitStartOp_ignores_tx (x : Byte) : Ignores (·.withTx c) (rxWaitStartOp x) :=
  .ite (fun _ => Iff.rfl) (fun _ => rfl) (rxFault_ignores_tx c _)

theorem rxGetKindOp_ignores_tx (x : Byte) : Ignores (·.withTx c) (rxGetKindOp x) :=
  .ite (fun _ => Iff.rfl) (fun _ => rfl) (rxFault_ignores_tx c _)

theorem rxGetLengthOp_ignores_tx (x : Byte) : Ignores (·.withTx c) (rxGetLengthOp x) :=
  .ite (fun _ => Iff.rfl) (fun _ => rfl) (rxFault_ignores_tx c _)

theorem rxGetStopOp_ignores_tx (x : Byte) : Ignores (·.withTx c) (rxGetStopOp x) :=
  .ite (fun _ => Iff.rfl) (.ite (fun _ => Iff.rfl) (fun _ => rfl) (rxFault_ignores_tx c _)) (rxFault_ignores_tx c _)

/-- The transition is selected by RXS, and no transition reads or writes a transmit register. -/
theorem selectedOp_ignores_tx (x : Byte) : Ignores (·.withTx c) (selectedOp x) := by
  intro b
  simp only [selectedOp, show (b.withTx c).rxs = b.rxs from rfl]
  split
  · exact rxWaitStartOp_ignores_tx c x b
  · exact rxGetKindOp_ignores_tx c x b
  · exact rxGetLengthOp_ignores_tx c x b
  · rfl
  · rfl
  · exact rxGetStopOp_ignores_tx c x b
  · rfl

theorem feedByteOp_ignores_tx (x : Byte) : Ignores (·.withTx c) (feedByteOp x) := by
  have hguarded : Ignores (·.withTx c) (guarded (selectedOp x)) :=
    .ite (fun _ => Iff.rfl) (selectedOp_ignores_tx c x) (rxFault_ignores_tx c _)
  exact fun b => hguarded (clearIdle b)

theorem feedBufOp_ignores_tx (bs : List Byte) (n : Nat) : Ignores (·.withTx c) (feedBufOp bs n) := by
  intro b
  induction bs generalizing n b with
  | nil => rfl
  | cons x xs ih =>
    rw [feedBufOp_cons, feedBufOp_cons, feedByteOp_ignores_tx c x b, ih]
    split <;> rfl

theorem tickOp_ignores_tx : Ignores (·.withTx c) fun b => (tickOp b, Ret.ok) := by
  intro b
  have hfires : tickFires (b.withTx c) = tickFires b := rfl
  have hcounts : tickCounts (b.withTx c) = tickCounts b := rfl
  simp only [tickOp, hfires, hcounts]
  split
  · rfl
  · split <;> rfl

end Transmit

/-- Settles O50: each of the three operations commutes with any change of the transmit registers. -/
theorem receiveReadsNoTransmitRegister : Obligations.ReceiveReadsNoTransmitRegister := by
  rintro s t c i (rfl | ⟨x, rfl⟩ | ⟨bs, rfl⟩) h
  · exact (tickOp_ignores_tx c).exec_withBlock id (fun _ _ => rfl) h
  · exact (feedByteOp_ignores_tx c x).exec_withBlock .rx (fun _ _ => rfl) h
  · exact (feedBufOp_ignores_tx c bs 0).exec_withBlock (fun r => .bulk r.1 r.2) (fun _ _ => rfl) h

/-- Other contents of the registers that the Error Manager writes: RXS, IDLE, LERR (60_exceptions.md R221). -/
def Block.withFaultRegs (b c : Block) : Block :=
  { b with rxs := c.rxs, idle := c.idle, lerr := c.lerr }

theorem txCompleteOp_ignores_rx (c : Block) : Ignores (·.withRx c) txCompleteOp := by
  intro b
  simp only [txCompleteOp_eq]
  rfl

theorem txCompleteOp_ignores_faultRegs (c : Block) : Ignores (·.withFaultRegs c) txCompleteOp := by
  intro b
  simp only [txCompleteOp_eq]
  rfl

theorem encodeOp_ignores_rx (c : Block) (k len : Byte) (p : List Byte) : Ignores (·.withRx c) (encodeOp k len p) :=
  .ite (fun _ => Iff.rfl) (fun _ => rfl) (fun _ => rfl)

/-- A performed ENCODE either raises its fault, which overwrites the Error Manager's registers whatever they held, or
sends its frame and leaves them alone. -/
theorem encodeOp_withFaultRegs (c : Block) (k len : Byte) (p : List Byte) (b : Block) :
    ((encodeOp k len p b).1.trace = b.trace ++ [.fault .payloadTooLarge .tx] ∧
      encodeOp k len p (b.withFaultRegs c) = encodeOp k len p b) ∨
    (∃ frame, (encodeOp k len p b).1.trace = b.trace ++ [.send frame] ∧
      encodeOp k len p (b.withFaultRegs c) = ((encodeOp k len p b).1.withFaultRegs c, (encodeOp k len p b).2)) := by
  rcases encodeOp_cases k len p b with ⟨hl, e⟩ | ⟨hl, e⟩
  · left
    rw [e, encodeOp, if_pos (show (b.withFaultRegs c).cfg.pMax.val < len.toNat from hl)]
    exact ⟨rfl, rfl⟩
  · right
    rw [e, encodeOp, if_neg (show ¬ (b.withFaultRegs c).cfg.pMax.val < len.toNat from Nat.not_lt.2 hl)]
    exact ⟨_, rfl, rfl⟩

/-- ENCODE, held or performed, reads and writes none of CUR, PK, PL, PBUF, CCHK, PRDY, DK, DL, DBUF. -/
theorem exec_encodeFrame_withRx {s t : State} {k len : Byte} {p : List Byte} (c : Block)
    (h : exec (.encodeFrame k len p) s = .next t) :
    exec (.encodeFrame k len p) (s.withBlock (s.block.withRx c)) = .next (t.withBlock (t.block.withRx c)) := by
  cases hb : s.block.txb
  · refine (encodeOp_ignores_rx c k len p).exec_withBlock id (fun b hor => ?_) h
    have hidle : b.txb = false := by rcases hor with rfl | rfl <;> exact hb
    exact exec_encodeFrame_of_idle (s := s.withBlock b) hidle k len p
  · obtain rfl := Host.Outcome.next.inj ((exec_encodeFrame_of_busy hb k len p).symm.trans h)
    exact exec_encodeFrame_of_busy (s := s.withBlock (s.block.withRx c)) hb k len p

/-- What ENCODE does with other contents of the Error Manager's registers. -/
theorem exec_encodeFrame_withFaultRegs {s t : State} {k len : Byte} {p : List Byte} (c : Block)
    (h : exec (.encodeFrame k len p) s = .next t) :
    (t.block.trace = s.block.trace ++ [.fault .payloadTooLarge .tx] ∧
      exec (.encodeFrame k len p) (s.withBlock (s.block.withFaultRegs c)) = .next t) ∨
    (∃ es, (∀ code src, Event.fault code src ∉ es) ∧ t.block.trace = s.block.trace ++ es ∧
      exec (.encodeFrame k len p) (s.withBlock (s.block.withFaultRegs c)) =
        .next (t.withBlock (t.block.withFaultRegs c))) := by
  cases hb : s.block.txb
  · rw [exec_encodeFrame_of_idle (s := s.withBlock (s.block.withFaultRegs c)) hb k len p]
    obtain rfl := Host.Outcome.next.inj ((exec_encodeFrame_of_idle hb k len p).symm.trans h)
    rcases encodeOp_withFaultRegs c k len p s.block with ⟨ht, e⟩ | ⟨frame, ht, e⟩
    · exact .inl ⟨ht, congrArg (answer · s) e⟩
    · exact .inr ⟨_, by simp, ht, congrArg (answer · s) e⟩
  · obtain rfl := Host.Outcome.next.inj ((exec_encodeFrame_of_busy hb k len p).symm.trans h)
    have hstays := exec_encodeFrame_of_busy (s := s.withBlock (s.block.withFaultRegs c)) hb k len p
    exact .inr ⟨[], by simp, (List.append_nil _).symm, hstays⟩

/-- TX_COMPLETE emits nothing and reads and writes TXB alone. -/
theorem exec_txComplete_trace {s t : State} (h : exec .txComplete s = .next t) : t.block.trace = s.block.trace := by
  obtain rfl := Host.Outcome.next.inj h
  rw [txCompleteOp_eq]

/-- Settles O51: ENCODE and TX_COMPLETE commute with any change of the receive registers, and with a change of the
Error Manager's registers unless ENCODE faults. -/
theorem transmitReadsNoReceiveRegister : Obligations.TransmitReadsNoReceiveRegister := by
  rintro s t c i (rfl | ⟨k, len, p, rfl⟩) h
  · refine ⟨(txCompleteOp_ignores_rx c).exec_withBlock id (fun _ _ => rfl) h, ?_⟩
    rintro other rfl
    refine .inr ⟨by simp [exec_txComplete_trace h], ?_⟩
    exact (txCompleteOp_ignores_faultRegs c).exec_withBlock id (fun _ _ => rfl) h
  · refine ⟨exec_encodeFrame_withRx c h, ?_⟩
    rintro other rfl
    rcases exec_encodeFrame_withFaultRegs c h with ⟨ht, e⟩ | ⟨es, hes, ht, e⟩ <;> rw [ht, List.drop_left]
    · exact .inl ⟨rfl, e⟩
    · exact .inr ⟨hes, e⟩

/-! ### Several instances (R86) -/

/-- Settles O55: `performAt` modifies one position of the list, and modifications at different positions commute. -/
theorem instancesAreIndependent : Obligations.InstancesAreIndependent := by
  intro m n i j instances hmn
  refine ⟨fun s t hs ht => ?_, List.getElem?_modify_ne _ _ hmn.symm, List.modify_modify_ne _ _ _ hmn.symm⟩
  obtain ⟨hn, rfl⟩ := List.getElem?_eq_some_iff.1 hs
  rw [performAt, List.modify_eq_take_cons_drop hn, perform_of_next ht]

end Sys2Proof.Machine

namespace Sys2Proof.Machine

/-! ## A clock cycle (20_memory.md R81) -/

/-! ### The cycle is the sequence of its requests -/

/-- From every state with block `b`, the operations complete and leave block `b'`. -/
def Leads (is : List Instr) (b b' : Block) : Prop :=
  ∀ s : State, s.block = b → ∃ t, execAll is s = .next t ∧ t.block = b'

theorem Leads.append {is js : List Instr} {a b c : Block} (hi : Leads is a b) (hj : Leads js b c) :
    Leads (is ++ js) a c := by
  intro s hs
  obtain ⟨t, ht, hb⟩ := hi s hs
  rw [execAll_append ht]
  exact hj t hb

/-- One operation, from what `exec` answers. -/
theorem Leads.single {i : Instr} {b b' : Block}
    (h : ∀ s : State, s.block = b → ∃ t, exec i s = .next t ∧ t.block = b') : Leads [i] b b' := by
  intro s hs
  obtain ⟨t, ht, hb⟩ := h s hs
  exact ⟨t, execAll_cons ht [], hb⟩

/-- An operation that is performed only where it is requested. -/
theorem Leads.requested (c : Bool) {i : Instr} {b b' : Block} (h : Leads [i] b b') :
    Leads (if c then [i] else []) b (if c then b' else b) := by
  cases c
  · exact fun s hs => ⟨s, rfl, hs⟩
  · exact h

theorem leads_readFrame (b : Block) : Leads [.readFrame] b b :=
  .single fun _ hs => ⟨_, rfl, hs⟩

theorem leads_consume (b : Block) : Leads [.consume] b (consumeOp b).1 :=
  .single fun _ hs => ⟨_, rfl, hs ▸ rfl⟩

theorem leads_txComplete (b : Block) : Leads [.txComplete] b (txCompleteOp b).1 :=
  .single fun _ hs => ⟨_, rfl, hs ▸ rfl⟩

theorem leads_feedByte (x : Byte) (b : Block) : Leads [.feedByte x] b (feedByteOp x b).1 :=
  .single fun _ hs => ⟨_, rfl, hs ▸ rfl⟩

theorem leads_tick (b : Block) : Leads [.tick] b (tickOp b) :=
  .single fun _ hs => ⟨_, rfl, hs ▸ rfl⟩

theorem leads_reinit (b : Block) : Leads [.reinit] b (reinitOp b) :=
  .single fun _ hs => ⟨_, rfl, hs ▸ rfl⟩

/-- A held ENCODE changes nothing (notes/assumptions/7.md). -/
theorem leads_encodeFrame (k len : Byte) (p : List Byte) (b : Block) :
    Leads [.encodeFrame k len p] b (if b.txb then b else (encodeOp k len p b).1) := by
  refine .single ?_
  rintro s rfl
  cases hb : s.block.txb
  · exact ⟨_, exec_encodeFrame_of_idle hb k len p, rfl⟩
  · exact ⟨_, exec_encodeFrame_of_busy hb k len p, rfl⟩

theorem afterTx_eq (inp : Inputs) (b : Block) : afterTx inp b =
    if inp.txReq then
      if (afterRx inp b).txb then afterRx inp b
      else (encodeOp inp.txKind inp.txLen (portPayload inp b) (afterRx inp b)).1
    else afterRx inp b := by
  unfold afterTx txGranted
  cases inp.txReq
  · rfl
  · cases (afterRx inp b).txb <;> rfl

/-- The requested operations, in their order, lead through the blocks of the cycle's turns. -/
theorem leads_requestedOps {inp : Inputs} (hrst : inp.rst = false) (b : Block) :
    Leads (requestedOps inp b) b (cycleBlock inp b) := by
  cases hre : inp.reinit
  · have hturns := (((((Leads.requested inp.rdReq (leads_readFrame b)).append
      (.requested inp.consume (leads_consume _))).append
      (.requested inp.txDone (leads_txComplete _))).append
      (.requested inp.rxValid (leads_feedByte inp.rxByte _))).append
      (.requested inp.txReq (leads_encodeFrame inp.txKind inp.txLen (portPayload inp b) _))).append
      (.requested inp.tick (leads_tick _))
    simp only [ite_self] at hturns
    simp only [requestedOps, cycleBlock, hrst, hre, afterTick, afterTx_eq]
    exact hturns
  · simp only [requestedOps, cycleBlock, hrst, hre]
    exact leads_reinit b

/-- Settles O56: the turns of a cycle are the requested operations in the order of R81. -/
theorem clockCycleIsTheOrderedSequence : Obligations.ClockCycleIsTheOrderedSequence :=
  fun _ s hrst => leads_requestedOps hrst s.block s rfl

/-! ### The ports of a cycle with several requests (95_test_vectors.md H13, H14, H15) -/

/-- The ports of READ_FRAME (30_encoding.md R102). -/
def Outputs.readPorts (o : Outputs) : Bool × Byte × Byte × Nat :=
  (o.rdOk, o.rdKind, o.rdLen, o.rdPayload)

theorem cycleOutputs_of_requests {inp : Inputs} (hrst : inp.rst = false) (hre : inp.reinit = false) (b : Block) :
    cycleOutputs inp b = requestOutputs inp b (statusOutputs (afterTick inp b)) := by
  simp [cycleOutputs, cycleBlock, hrst, hre]

theorem cycleBlock_of_requests {inp : Inputs} (hrst : inp.rst = false) (hre : inp.reinit = false) (b : Block) :
    cycleBlock inp b = afterTick inp b := by
  simp [cycleBlock, hrst, hre]

@[simp] theorem rxOutputs_readPorts (r : RxOutcome) (o : Outputs) : (rxOutputs r o).readPorts = o.readPorts := rfl
@[simp] theorem txOutputs_readPorts (r : Ret) (o : Outputs) : (txOutputs r o).readPorts = o.readPorts := rfl
@[simp] theorem tickOutputs_readPorts (o : Outputs) : (tickOutputs o).readPorts = o.readPorts := rfl

@[simp] theorem readOutputs_frameReady (b : Block) (o : Outputs) : (readOutputs b o).frameReady = o.frameReady := by
  unfold readOutputs
  split <;> rfl

@[simp] theorem rxOutputs_frameReady (r : RxOutcome) (o : Outputs) :
    (rxOutputs r o).frameReady = decide (r = .frameReady) := rfl
@[simp] theorem txOutputs_frameReady (r : Ret) (o : Outputs) : (txOutputs r o).frameReady = o.frameReady := rfl
@[simp] theorem tickOutputs_frameReady (o : Outputs) : (tickOutputs o).frameReady = o.frameReady := rfl

@[simp] theorem readOutputs_payloadReady (b : Block) (o : Outputs) :
    (readOutputs b o).payloadReady = o.payloadReady := by
  unfold readOutputs
  split <;> rfl

@[simp] theorem rxOutputs_payloadReady (r : RxOutcome) (o : Outputs) :
    (rxOutputs r o).payloadReady = o.payloadReady := rfl
@[simp] theorem txOutputs_payloadReady (r : Ret) (o : Outputs) : (txOutputs r o).payloadReady = o.payloadReady := rfl
@[simp] theorem tickOutputs_payloadReady (o : Outputs) : (tickOutputs o).payloadReady = o.payloadReady := rfl

@[simp] theorem txOutputs_txAck (r : Ret) (o : Outputs) : (txOutputs r o).txAck = true := rfl
@[simp] theorem tickOutputs_txAck (o : Outputs) : (tickOutputs o).txAck = o.txAck := rfl

/-- No operation but READ_FRAME drives the read ports. -/
theorem requestOutputs_readPorts (inp : Inputs) (b : Block) (o : Outputs) :
    (requestOutputs inp b o).readPorts = (if inp.rdReq then readOutputs b o else o).readPorts := by
  simp only [requestOutputs, apply_ite Outputs.readPorts, rxOutputs_readPorts, txOutputs_readPorts,
    tickOutputs_readPorts, ite_self]

/-- Only FEED_BYTE drives frame_ready. -/
theorem requestOutputs_frameReady (inp : Inputs) (b : Block) (o : Outputs) :
    (requestOutputs inp b o).frameReady =
      if inp.rxValid then decide ((feedByteOp inp.rxByte (afterTxDone inp b)).2 = .frameReady) else o.frameReady := by
  simp only [requestOutputs, apply_ite Outputs.frameReady, readOutputs_frameReady, rxOutputs_frameReady,
    txOutputs_frameReady, tickOutputs_frameReady, ite_self]

/-- payload_ready is a status port: no operation drives it. -/
theorem requestOutputs_payloadReady (inp : Inputs) (b : Block) (o : Outputs) :
    (requestOutputs inp b o).payloadReady = o.payloadReady := by
  simp only [requestOutputs, apply_ite Outputs.payloadReady, readOutputs_payloadReady, rxOutputs_payloadReady,
    txOutputs_payloadReady, tickOutputs_payloadReady, ite_self]

/-- A granted ENCODE is acknowledged. -/
theorem requestOutputs_txAck {inp : Inputs} {b : Block} (hgranted : txGranted inp (afterRx inp b) = true)
    (o : Outputs) : (requestOutputs inp b o).txAck = true := by
  simp only [requestOutputs, hgranted, if_true, apply_ite Outputs.txAck, txOutputs_txAck, tickOutputs_txAck, ite_self]

/-! ### PRDY and TXB along the turns of a cycle -/

theorem encodeOp_prdy (k len : Byte) (p : List Byte) (b : Block) : (encodeOp k len p b).1.prdy = b.prdy := by
  rcases encodeOp_cases k len p b with ⟨_, e⟩ | ⟨_, e⟩ <;> rw [e] <;> rfl

theorem tickOp_prdy (b : Block) : (tickOp b).prdy = b.prdy := by
  rcases tickOp_cases b with ⟨_, e⟩ | ⟨_, _, _, e⟩ | ⟨_, _, _, e⟩
  · rw [e]
  · rw [e]
  · rw [e, raiseFault_prdy]

/-- A FEED_BYTE that answers FrameReady leaves PRDY = 1 (41_receive.md R156). -/
theorem feedByteOp_prdy_of_frameReady {x : Byte} {b : Block} (h : (feedByteOp x b).2 = .frameReady) :
    (feedByteOp x b).1.prdy = true := by
  rcases feedByteOp_cases x b with ⟨_, _, _, e⟩ | ⟨_, _, e⟩ | ⟨_, _, e⟩ | ⟨_, _, e⟩ | ⟨_, _, _, e⟩ | ⟨_, _, _, e⟩ |
    ⟨_, _, e⟩ | ⟨_, _, _, _, e⟩
  case inr.inr.inr.inr.inr.inr.inr => rw [e]
  all_goals
    rw [e] at h
    cases h

/-- ENCODE and TICK leave PRDY as FEED_BYTE's turn left it. -/
theorem afterTick_prdy (inp : Inputs) (b : Block) : (afterTick inp b).prdy = (afterRx inp b).prdy := by
  simp only [afterTick, afterTx, apply_ite Block.prdy, tickOp_prdy, encodeOp_prdy, ite_self]

/-- After CONSUME's turn, and TX_COMPLETE's, PRDY = 0. -/
theorem afterTxDone_prdy_of_consume {inp : Inputs} (hc : inp.consume = true) (b : Block) :
    (afterTxDone inp b).prdy = false := by
  have hcons : (afterConsume inp b).prdy = false := by simp [afterConsume, hc, consumeOp_fst]
  simp only [afterTxDone, apply_ite Block.prdy, txCompleteOp_eq, hcons, ite_self]

/-- After TX_COMPLETE's turn, and FEED_BYTE's, TXB = 0. -/
theorem afterRx_txb_of_txDone {inp : Inputs} (hd : inp.txDone = true) (b : Block) : (afterRx inp b).txb = false := by
  have hdone : (afterTxDone inp b).txb = false := by simp [afterTxDone, hd, txCompleteOp_eq]
  simp only [afterRx, apply_ite Block.txb, (feedByteOp_keeps _ _).2.1, hdone, ite_self]

/-- H13: READ_FRAME's ports show the delivered frame that the cycle began with. -/
theorem cycleOutputs_readPorts {inp : Inputs} (hrst : inp.rst = false) (hre : inp.reinit = false) {b : Block}
    (hrd : inp.rdReq = true) (hready : b.prdy = true) :
    (cycleOutputs inp b).readPorts = (true, b.dk, b.dl, packBytes b.dbuf) := by
  rw [cycleOutputs_of_requests hrst hre, requestOutputs_readPorts, if_pos hrd, readOutputs, if_pos hready]
  rfl

/-- CONSUME in a cycle without a byte leaves PRDY = 0. -/
theorem cycleBlock_prdy_of_consume {inp : Inputs} (hrst : inp.rst = false) (hre : inp.reinit = false) (b : Block)
    (hc : inp.consume = true) (hrx : inp.rxValid = false) : (cycleBlock inp b).prdy = false := by
  have hno : afterRx inp b = afterTxDone inp b := by simp [afterRx, hrx]
  rw [cycleBlock_of_requests hrst hre, afterTick_prdy, hno, afterTxDone_prdy_of_consume hc]

/-- H14: a byte that completes a frame leaves PRDY = 1, whatever CONSUME did before it. -/
theorem cycleBlock_prdy_of_frameReady {inp : Inputs} (hrst : inp.rst = false) (hre : inp.reinit = false) {b : Block}
    (hrx : inp.rxValid = true) (hframe : (cycleOutputs inp b).frameReady = true) :
    (cycleBlock inp b).prdy = true := by
  rw [cycleOutputs_of_requests hrst hre, requestOutputs_frameReady, if_pos hrx, decide_eq_true_iff] at hframe
  have hfed : afterRx inp b = (feedByteOp inp.rxByte (afterTxDone inp b)).1 := by simp [afterRx, hrx]
  rw [cycleBlock_of_requests hrst hre, afterTick_prdy, hfed, feedByteOp_prdy_of_frameReady hframe]

theorem cycleOutputs_payloadReady {inp : Inputs} (hrst : inp.rst = false) (hre : inp.reinit = false) (b : Block) :
    (cycleOutputs inp b).payloadReady = (cycleBlock inp b).prdy := by
  rw [cycleOutputs_of_requests hrst hre, cycleBlock_of_requests hrst hre, requestOutputs_payloadReady]
  rfl

/-- H15: TX_COMPLETE frees the transmitter for the ENCODE of the same cycle. -/
theorem cycleOutputs_txAck {inp : Inputs} (hrst : inp.rst = false) (hre : inp.reinit = false) (b : Block)
    (hd : inp.txDone = true) (hreq : inp.txReq = true) : (cycleOutputs inp b).txAck = true := by
  have hgranted : txGranted inp (afterRx inp b) = true := by simp [txGranted, hreq, afterRx_txb_of_txDone hd]
  rw [cycleOutputs_of_requests hrst hre, requestOutputs_txAck hgranted]

/-- Settles O57: each clause follows the register it speaks of through the turns of the cycle. -/
theorem sameCycleOrderOfRequests : Obligations.SameCycleOrderOfRequests := by
  intro inp b hrst hre
  refine ⟨fun hrd hready => ?_, cycleBlock_prdy_of_consume hrst hre b, fun hrx hframe => ?_,
    cycleOutputs_txAck hrst hre b⟩
  · simpa [Outputs.readPorts] using cycleOutputs_readPorts hrst hre hrd hready
  · have hready := cycleBlock_prdy_of_frameReady hrst hre hrx hframe
    exact ⟨hready, (cycleOutputs_payloadReady hrst hre b).trans hready⟩

end Sys2Proof.Machine

namespace Sys2Proof

/-! ## The command decoder and encoder (30_encoding.md R100, R101) -/

/-! ### Operands -/

theorem takeOperands_eq_ok_iff {op : Byte} {n : Nat} {bytes p rest : List Byte} :
    takeOperands op n bytes = .ok (p, rest) ↔ bytes = p ++ rest ∧ p.length = n := by
  unfold takeOperands
  constructor
  · intro h
    split at h
    · next hn =>
      cases h
      exact ⟨(List.take_append_drop n bytes).symm, List.length_take_of_le hn⟩
    · cases h
  · rintro ⟨rfl, rfl⟩
    simp

theorem decodeFeedByte_eq_ok_iff {bytes rest : List Byte} {i : Instr} :
    decodeFeedByte bytes = .ok (i, rest) ↔ ∃ b, i = .feedByte b ∧ bytes = b :: rest := by
  cases bytes <;> simp [decodeFeedByte, eq_comm]

theorem decodeEncode_eq_ok_iff {pMax : Fin 256} {bytes rest : List Byte} {i : Instr} :
    decodeEncode pMax bytes = .ok (i, rest) ↔
      ∃ k len p, i = .encodeFrame k len p ∧ bytes = k :: len :: (p ++ rest) ∧ p.length = carriedPayload pMax len := by
  constructor
  · intro h
    unfold decodeEncode at h
    split at h
    · next k len tail =>
      split at h
      · next p rest' htake =>
        cases h
        obtain ⟨rfl, hp⟩ := takeOperands_eq_ok_iff.1 htake
        exact ⟨k, len, p, rfl, rfl, hp⟩
      · cases h
    · cases h
  · rintro ⟨k, len, p, rfl, rfl, hp⟩
    simp [decodeEncode, takeOperands_eq_ok_iff.2 ⟨rfl, hp⟩]

theorem decodeFeedBuf_eq_ok_iff {bytes rest : List Byte} {i : Instr} :
    decodeFeedBuf bytes = .ok (i, rest) ↔
      ∃ (n : Byte) (p : List Byte), i = .feedBuf p ∧ bytes = n :: (p ++ rest) ∧ p.length = n.toNat := by
  constructor
  · intro h
    unfold decodeFeedBuf at h
    split at h
    · next n tail =>
      split at h
      · next p rest' htake =>
        cases h
        obtain ⟨rfl, hp⟩ := takeOperands_eq_ok_iff.1 htake
        exact ⟨n, p, rfl, rfl, hp⟩
      · cases h
    · cases h
  · rintro ⟨n, p, rfl, rfl, hp⟩
    simp [decodeFeedBuf, takeOperands_eq_ok_iff.2 ⟨rfl, hp⟩]

/-! ### Commands -/

/-- FEED_BUF's count byte is exact for up to 255 bytes (41_receive.md R161). -/
theorem countByte_toNat {n : Nat} (h : n ≤ 255) : (BitVec.ofNat 8 n).toNat = n := by
  rw [BitVec.toNat_ofNat]
  omega

/-- The opcodes of R100, or a reserved one (R101). -/
theorem opcode_cases (op : Byte) :
    op = 0#8 ∨ op = 1#8 ∨ op = 2#8 ∨ op = 3#8 ∨ op = 4#8 ∨ op = 5#8 ∨ op = 6#8 ∨ op = 7#8 ∨ op = 8#8 ∨
      9 ≤ op.toNat := by
  simp only [← BitVec.toNat_inj, BitVec.toNat_ofNat]
  omega

theorem decode_reserved (pMax : Fin 256) {op : Byte} (h : 9 ≤ op.toNat) (rest : List Byte) :
    decode pMax (op :: rest) = .ok (.reserved op, rest) := by
  obtain ⟨n, hn⟩ := Nat.exists_eq_add_of_le' h
  simp only [decode, hn]

/-- A command's bytes are read as that command. -/
theorem decode_encode {pMax : Fin 256} {i : Instr} (hwf : i.wellFormed pMax = true) (hcmd : i.isCommand = true)
    (rest : List Byte) : decode pMax (encode i ++ rest) = .ok (i, rest) := by
  cases i
  case encodeFrame k len p => exact decodeEncode_eq_ok_iff.2 ⟨k, len, p, rfl, rfl, of_decide_eq_true hwf⟩
  case feedBuf p =>
    exact decodeFeedBuf_eq_ok_iff.2 ⟨_, p, rfl, rfl, (countByte_toNat (of_decide_eq_true hwf)).symm⟩
  case reserved op => exact decode_reserved pMax (of_decide_eq_true hwf) rest
  case nop | feedByte | txComplete | readFrame | consume | reinit | tick => rfl
  all_goals cases hcmd

/-- What was read as a command is that command's bytes. -/
theorem encode_of_decode {pMax : Fin 256} {bytes rest : List Byte} {i : Instr}
    (h : decode pMax bytes = .ok (i, rest)) :
    encode i ++ rest = bytes ∧ i.wellFormed pMax = true ∧ i.isCommand = true := by
  cases bytes with
  | nil => cases h
  | cons op tail =>
    have oneByte : ∀ c : Instr, encode c = [op] → c.wellFormed pMax = true → c.isCommand = true →
        (.ok (c, tail) : Except DecodeError (Instr × List Byte)) = .ok (i, rest) →
        encode i ++ rest = op :: tail ∧ i.wellFormed pMax = true ∧ i.isCommand = true := by
      intro c hbytes hwf hcmd heq
      cases heq
      exact ⟨by rw [hbytes, List.singleton_append], hwf, hcmd⟩
    rcases opcode_cases op with rfl | rfl | rfl | rfl | rfl | rfl | rfl | rfl | rfl | hop
    · exact oneByte .nop rfl rfl rfl h
    · obtain ⟨b, rfl, rfl⟩ := decodeFeedByte_eq_ok_iff.1 h
      exact ⟨rfl, rfl, rfl⟩
    · obtain ⟨k, len, p, rfl, rfl, hp⟩ := decodeEncode_eq_ok_iff.1 h
      exact ⟨rfl, decide_eq_true hp, rfl⟩
    · exact oneByte .txComplete rfl rfl rfl h
    · exact oneByte .readFrame rfl rfl rfl h
    · exact oneByte .consume rfl rfl rfl h
    · exact oneByte .reinit rfl rfl rfl h
    · exact oneByte .tick rfl rfl rfl h
    · obtain ⟨n, p, rfl, rfl, hp⟩ := decodeFeedBuf_eq_ok_iff.1 h
      have hn := n.isLt
      exact ⟨by simp [encode, opcodeOf, operandBytes, hp], decide_eq_true (by omega), rfl⟩
    · exact oneByte (.reserved op) rfl (decide_eq_true hop) rfl ((decode_reserved pMax hop tail).symm.trans h)

/-- Settles O1: each command's operands are read back by its own decoder, and a reserved opcode by its number. -/
theorem decodeOfEncodedCommand : Obligations.DecodeOfEncodedCommand :=
  fun _ _ rest hwf hcmd => decode_encode hwf hcmd rest

/-- Settles O2, by cases on the opcode byte. -/
theorem encodeOfDecodedCommand : Obligations.EncodeOfDecodedCommand :=
  fun _ _ _ _ h => encode_of_decode h

/-- Settles O4: a well-formed ENCODE carries `min(L, P_MAX)` payload bytes, and the rest is counting. -/
theorem commandLengthsAreGiven : Obligations.CommandLengthsAreGiven := by
  refine ⟨by decide, fun _ => rfl, fun pMax k len p hwf => ?_, fun bs => Nat.add_comm bs.length 2⟩
  have hp : p.length = min len.toNat pMax.val := of_decide_eq_true hwf
  rw [← hp]
  exact Nat.add_comm p.length 3

/-- Settles O5: the decoder is run on each of the written commands. -/
theorem writtenCommandsDecode : Obligations.WrittenCommandsDecode :=
  ⟨rfl, rfl, rfl, rfl, rfl, rfl, rfl, rfl, rfl, rfl⟩

/-! ### The rows that RXS selects (30_encoding.md R96) -/

theorem rxsCode_cases (c : RxsCode) :
    c = 0#3 ∨ c = 1#3 ∨ c = 2#3 ∨ c = 3#3 ∨ c = 4#3 ∨ c = 5#3 ∨ c = 6#3 ∨ c = 7#3 := by
  revert c
  decide

/-- The row that a value of RXS selects is a row of that value. -/
theorem rowCode_selectRow (c : RxsCode) (x : Byte) : (selectRow c x).rowCode = some c := by
  rcases rxsCode_cases c with rfl | rfl | rfl | rfl | rfl | rfl | rfl | rfl <;> rfl

/-- A row is the one that its value of RXS selects, with its own operand byte. -/
theorem eq_selectRow_of_rowCode {i : Instr} {c : RxsCode} (h : i.rowCode = some c) :
    ∃ x, i = selectRow c x ∧ encode i = [0x01#8, x] := by
  cases i <;> cases h <;> exact ⟨_, rfl, rfl⟩

/-- Settles O3: the stream holds a FEED_BYTE, and RXS turns it into the row. -/
theorem rowDecodesUnderItsReceiveState : Obligations.RowDecodesUnderItsReceiveState := by
  refine ⟨fun pMax i c rest h => ?_, rowCode_selectRow⟩
  obtain ⟨x, rfl, hbytes⟩ := eq_selectRow_of_rowCode h
  rw [hbytes]
  rfl

end Sys2Proof

namespace Sys2Proof.Machine

/-! ## A step of a command stream (30_encoding.md R100, R101; 20_memory.md R79, R83) -/

/-! ### What a step does with the head of the stream -/

theorem step_of_empty {s : State} (h : s.cmds = []) : step s = .next s := by
  simp [step, fetch, h, decode]

theorem step_of_enabled {s : State} {i : Instr} {rest : List Byte}
    (hd : decode s.block.cfg.pMax s.cmds = .ok (i, rest)) (hi : held i s.block = false) :
    step s = exec i (afterFetch rest s) := by
  simp [step, fetch, hd, hi]

theorem step_of_held {s : State} {i : Instr} {rest : List Byte}
    (hd : decode s.block.cfg.pMax s.cmds = .ok (i, rest)) (hi : held i s.block = true) : step s = .next s := by
  simp [step, fetch, hd, hi]

/-- Only ENCODE is ever held, and only while TXB = 1 (20_memory.md R83). -/
theorem held_iff (i : Instr) (b : Block) :
    held i b = true ↔ (∃ k len p, i = .encodeFrame k len p) ∧ b.txb = true := by
  cases i <;> simp [held]

/-- Settles O7: the cases of `step`. -/
theorem stepPerformsTheNextCommand : Obligations.StepPerformsTheNextCommand :=
  ⟨fun _ _ _ hd => ⟨step_of_enabled hd, step_of_held hd⟩, held_iff, fun _ => step_of_empty⟩

/-- Settles O6: the reserved opcode is read as an instruction that is not held and that `exec` refuses. -/
theorem reservedOpcodeTakesNoStep : Obligations.ReservedOpcodeTakesNoStep := by
  refine ⟨fun _ _ => rfl, fun s op rest hop hs => ?_⟩
  have hd : decode s.block.cfg.pMax s.cmds = .ok (.reserved op, rest) := hs ▸ decode_reserved _ hop rest
  exact step_of_enabled hd rfl

/-! ### Programs -/

/-- A step on a program leaves the program as it is, or performs its first command and leaves the others. -/
theorem step_of_program {s : State} {i : Instr} {is : List Instr} (hok : programOk s.block.cfg.pMax (i :: is))
    (hs : s.cmds = encodeProgram (i :: is)) :
    step s = .next s ∨ ∃ t, step s = .next t ∧ t.block.cfg = s.block.cfg ∧ t.cmds = encodeProgram is := by
  obtain ⟨hwf, hcmd, hres⟩ := hok i List.mem_cons_self
  have hd : decode s.block.cfg.pMax s.cmds = .ok (i, encodeProgram is) := by
    rw [hs]
    exact decode_encode hwf hcmd _
  cases hi : held i s.block
  · obtain ⟨t, ht⟩ := exec_completes i (afterFetch (encodeProgram is) s) hres
    have hcfg := exec_cfg ht
    exact .inr ⟨t, (step_of_enabled hd hi).trans ht, hcfg, exec_cmds ht⟩
  · exact .inl (step_of_held hd hi)

/-- Settles O8: the first command decodes to itself, and no command but a reserved opcode is refused. -/
theorem wellFormedProgramIsNeverRefused : Obligations.WellFormedProgramIsNeverRefused := by
  intro s is hok hs
  cases is with
  | nil => exact ⟨s, [], step_of_empty hs, List.suffix_refl _, hok, hs⟩
  | cons i is =>
    rcases step_of_program hok hs with hstay | ⟨t, ht, hcfg, hcmds⟩
    · exact ⟨s, i :: is, hstay, List.suffix_refl _, hok, hs⟩
    · refine ⟨t, is, ht, List.suffix_cons i is, ?_, hcmds⟩
      rw [hcfg]
      exact fun j hj => hok j (List.mem_cons_of_mem i hj)

/-! ### The illegal rows (41_receive.md R157) -/

theorem guarded_rxMalformedOp (b : Block) : guarded rxMalformedOp b = rxMalformedOp b :=
  ite_self _

/-- A row without a transition of its own raises MalformedState where RXS selects it. -/
theorem runRow_rxMalformedOp {code : RxsCode} {s : State} (h : s.block.rxs = code) :
    runRow code rxMalformedOp s = .next (s.afterRxFault .malformedState) := by
  rw [runRow_selected _ _ _ h, guarded_rxMalformedOp]
  rfl

/-- Settles O22: with or without the check WF, the byte raises MalformedState. -/
theorem illegalRowsRaiseMalformedState : Obligations.IllegalRowsRaiseMalformedState :=
  fun _ _ => ⟨runRow_rxMalformedOp, runRow_rxMalformedOp⟩

/-! ### The events and LERR (30_encoding.md R98; 10_state.md R51) -/

/-- The arrays have their lengths, the trace holds only events that the spec lists, and LERR is None or the code of a
fault that the block raises. -/
structure WithinLists (b : Block) : Prop where
  arrays : Memory.wf b = true
  events : ∀ e ∈ b.trace, e.legal = true
  last_error : lerrLegal b

theorem legal_append {es : List Event} {e : Event} (hes : ∀ f ∈ es, f.legal = true) (he : e.legal = true) :
    ∀ f ∈ es ++ [e], f.legal = true := by
  simpa [or_imp, forall_and] using ⟨hes, he⟩

theorem rxFault_legal {code : FaultKind} (hr : code.raised = true) (ht : code ≠ .timeout) :
    (Event.fault code .rx).legal = true := by
  cases code
  case timeout => exact absurd rfl ht
  case transmitBusy | receiveBusy => cases hr
  all_goals rfl

theorem WithinLists.raiseFault {b : Block} (h : WithinLists b) {code : FaultKind} {src : FaultSource}
    (hr : code.raised = true) (he : (Event.fault code src).legal = true) : WithinLists (raiseFault code src b) where
  arrays := h.arrays
  events := legal_append h.events he
  last_error := .inr ⟨code, hr, rfl⟩

theorem WithinLists.feedByteOp {b : Block} (h : WithinLists b) (x : Byte) : WithinLists (feedByteOp x b).1 := by
  have harrays := feedByteOp_memory_wf x b h.arrays
  rcases feedByteOp_cases x b with ⟨code, hr, ht, e⟩ | ⟨_, _, e⟩ | ⟨_, _, e⟩ | ⟨_, _, e⟩ | ⟨_, _, _, e⟩ |
    ⟨_, _, _, e⟩ | ⟨_, _, e⟩ | ⟨_, hl, _, _, e⟩ <;> rw [e] at harrays ⊢
  case inl => exact (⟨h.arrays, h.events, h.last_error⟩ : WithinLists (clearIdle b)).raiseFault hr (rxFault_legal hr ht)
  case inr.inr.inr.inr.inr.inr.inr =>
    have hpbuf := ((memory_wf_iff b).1 h.arrays).1
    have hlen : (b.pbuf.take b.pl.toNat).length = b.pl.toNat := List.length_take_of_le (by omega)
    exact ⟨harrays, legal_append h.events (decide_eq_true hlen), h.last_error⟩
  all_goals exact ⟨harrays, h.events, h.last_error⟩

theorem WithinLists.encodeOp {b : Block} (h : WithinLists b) (k len : Byte) (p : List Byte) :
    WithinLists (encodeOp k len p b).1 := by
  have harrays := encodeOp_memory_wf k len p b h.arrays
  rcases encodeOp_cases k len p b with ⟨_, e⟩ | ⟨_, e⟩ <;> rw [e] at harrays ⊢
  · exact h.raiseFault rfl rfl
  · exact ⟨harrays, legal_append h.events rfl, h.last_error⟩

theorem WithinLists.tickOp {b : Block} (h : WithinLists b) : WithinLists (tickOp b) := by
  rcases tickOp_cases b with ⟨_, e⟩ | ⟨_, _, _, e⟩ | ⟨_, _, _, e⟩ <;> rw [e]
  · exact h
  · exact ⟨h.arrays, h.events, h.last_error⟩
  · exact h.raiseFault rfl rfl

theorem WithinLists.reinitOp {b : Block} (h : WithinLists b) : WithinLists (reinitOp b) :=
  ⟨construct_memory_wf b.cfg, h.events, .inl rfl⟩

theorem WithinLists.exec {i : Instr} {s t : State} (h : WithinLists s.block) (he : exec i s = .next t) :
    WithinLists t.block :=
  exec_lift (R := fun a b => WithinLists a → WithinLists b) (fun _ => id) (fun _ _ _ hab hbc => hbc ∘ hab)
    (fun x _ hb => hb.feedByteOp x) (fun k len p _ _ hb => hb.encodeOp k len p)
    (fun _ hb => ⟨hb.arrays, hb.events, hb.last_error⟩) (fun _ hb => ⟨hb.arrays, hb.events, hb.last_error⟩)
    (fun _ hb => hb.reinitOp) (fun _ hb => hb.tickOp) he h

/-- Settles O42: each operation of the block emits only listed events, so every instruction and every step does. -/
theorem stepEmitsOnlyListedEvents : Obligations.StepEmitsOnlyListedEvents := by
  intro s t harrays hevents hlerr h
  obtain ⟨ha, he, hl⟩ := step_keeps WithinLists.exec ⟨harrays, hevents, hlerr⟩ h
  exact ⟨ha, he, hl⟩

/-- Settles O60: each code is the one of its table. -/
theorem codesAreThoseOfTheTables : Obligations.CodesAreThoseOfTheTables :=
  ⟨rfl, rfl, rfl, ofCode_code, rfl, rfl, rfl, rfl, fun _ => ⟨rfl, rfl⟩, rfl, rfl, rfl, rfl, rfl, rfl⟩

end Sys2Proof.Machine

namespace Sys2Proof

/-! ## Bytes and numbers (30_encoding.md R102) -/

/-- Byte `j` of a packed number stands at bits `8j+7` to `8j`. -/
theorem packBytes_getElem? {bytes : List Byte} {j : Nat} {x : Byte} (h : bytes[j]? = some x) :
    packBytes bytes / 256 ^ j % 256 = x.toNat := by
  induction bytes generalizing j with
  | nil => simp at h
  | cons b bs ih =>
    have hb := b.isLt
    cases j with
    | zero =>
      obtain rfl : b = x := by simpa using h
      rw [packBytes]
      omega
    | succ j =>
      have hrest : packBytes (b :: bs) / 256 = packBytes bs := by
        rw [packBytes]
        omega
      rw [Nat.pow_succ', ← Nat.div_div_eq_div_mul, hrest]
      exact ih (by simpa using h)

/-- A packed list is unpacked to itself. -/
theorem unpackBytes_packBytes (bytes : List Byte) : unpackBytes bytes.length (packBytes bytes) = bytes := by
  induction bytes with
  | nil => rfl
  | cons b bs ih =>
    have hb := b.isLt
    have hrest : (b.toNat + 256 * packBytes bs) / 256 = packBytes bs := by omega
    have hfirst : BitVec.ofNat 8 (b.toNat + 256 * packBytes bs) = b := by
      apply BitVec.eq_of_toNat_eq
      rw [BitVec.toNat_ofNat]
      omega
    rw [List.length_cons, packBytes, unpackBytes, hfirst, hrest, ih]

end Sys2Proof

namespace Sys2Proof.Machine

/-! ## The ports of a cycle (30_encoding.md R102) -/

/-! ### The ports that no requested operation drives -/

/-- The status ports. -/
def Outputs.statusPorts (o : Outputs) : Nat × BitVec 9 × Byte × Bool × Bool × Code4 :=
  (o.sendBuf, o.sendLen, o.txChk, o.txBusy, o.payloadReady, o.lastError)

/-- The ports of FEED_BYTE and of its events, but for its bit of flt_valid. -/
def Outputs.rxPorts (o : Outputs) : BitVec 2 × Code4 × Bool × Code4 :=
  (o.rxOutcome, o.rxFault, o.frameReady, o.fltCodeRx)

/-- The ports of ENCODE and of its events, but for its bit of flt_valid. -/
def Outputs.txPorts (o : Outputs) : Bool × BitVec 2 × Code4 × Bool × Code4 :=
  (o.txAck, o.txResult, o.txFault, o.sendValid, o.fltCodeTx)

/-- Ports that READ_FRAME does not drive are the same with and without its turn. -/
theorem readOutputs_port_eq {α : Type} {f : Outputs → α}
    (hf : ∀ (o : Outputs) ok k len p, f { o with rdOk := ok, rdKind := k, rdLen := len, rdPayload := p } = f o)
    (b : Block) (o : Outputs) : f (readOutputs b o) = f o := by
  unfold readOutputs
  split
  · exact hf ..
  · rfl

section Ports

variable {α : Type} {f : Outputs → α} {inp : Inputs}

/-- Ports that each operation either is not requested to drive or does not drive are as they were before the
operations' turns. -/
theorem requestOutputs_port_eq (hrd : inp.rdReq = false ∨ ∀ b o, f (readOutputs b o) = f o)
    (hrx : inp.rxValid = false ∨ ∀ r o, f (rxOutputs r o) = f o)
    (htx : inp.txReq = false ∨ ∀ r o, f (txOutputs r o) = f o)
    (htick : inp.tick = false ∨ ∀ o, f (tickOutputs o) = f o) (b : Block) (o : Outputs) :
    f (requestOutputs inp b o) = f o := by
  have turn : ∀ {c : Bool} {u v : Outputs}, c = false ∨ f u = f v → f (if c then u else v) = f v := by
    rintro c u v (rfl | h)
    · rfl
    · rw [apply_ite f, h, ite_self]
  have hgranted : inp.txReq = false → txGranted inp (afterRx inp b) = false := fun h => by simp [txGranted, h]
  have hticks : inp.tick = false → (inp.tick && tickFires (afterTx inp b)) = false := fun h => by simp [h]
  calc f (requestOutputs inp b o)
      = _ := turn (htick.imp hticks fun h => h _)
    _ = _ := turn (htx.imp hgranted fun h => h _ _)
    _ = _ := turn (hrx.imp_right fun h => h _ _)
    _ = f o := turn (hrd.imp_right fun h => h _ _)

/-- In a cycle with rst or reinit, or without the operations that drive them, ports show what `statusOutputs` gives. -/
theorem cycleOutputs_port_eq {P : Prop} {b : Block} (h : inp.rst = true ∨ inp.reinit = true ∨ P)
    (hreq : P → ∀ o, f (requestOutputs inp b o) = f o) :
    f (cycleOutputs inp b) = f (statusOutputs (cycleBlock inp b)) := by
  unfold cycleOutputs
  split
  · rfl
  · next hno =>
    obtain ⟨hrst, hre⟩ : inp.rst = false ∧ inp.reinit = false := by simpa using hno
    rcases h with h | h | h
    · simp [h] at hrst
    · simp [h] at hre
    · exact hreq h _

end Ports

/-- The status ports show the block at the end of the cycle, in every cycle. -/
theorem cycleOutputs_statusPorts (inp : Inputs) (b : Block) :
    (cycleOutputs inp b).statusPorts = (statusOutputs (cycleBlock inp b)).statusPorts :=
  cycleOutputs_port_eq (P := True) (.inr (.inr trivial)) fun _ => requestOutputs_port_eq
    (.inr (readOutputs_port_eq fun _ _ _ _ _ => rfl)) (.inr fun _ _ => rfl) (.inr fun _ _ => rfl) (.inr fun _ => rfl) b

/-- Without FEED_BYTE its ports are 0. -/
theorem cycleOutputs_rxPorts {inp : Inputs} (b : Block)
    (h : inp.rst = true ∨ inp.reinit = true ∨ inp.rxValid = false) :
    (cycleOutputs inp b).rxPorts = (0#2, 0#4, false, 0#4) :=
  cycleOutputs_port_eq (f := Outputs.rxPorts) h fun hrx => requestOutputs_port_eq
    (.inr (readOutputs_port_eq fun _ _ _ _ _ => rfl)) (.inl hrx) (.inr fun _ _ => rfl) (.inr fun _ => rfl) b

/-- Without ENCODE its ports are 0. -/
theorem cycleOutputs_txPorts {inp : Inputs} (b : Block)
    (h : inp.rst = true ∨ inp.reinit = true ∨ inp.txReq = false) :
    (cycleOutputs inp b).txPorts = (false, 0#2, 0#4, false, 0#4) :=
  cycleOutputs_port_eq (f := Outputs.txPorts) h fun htx => requestOutputs_port_eq
    (.inr (readOutputs_port_eq fun _ _ _ _ _ => rfl)) (.inr fun _ _ => rfl) (.inl htx) (.inr fun _ => rfl) b

/-- Without TICK its fault code is 0. -/
theorem cycleOutputs_fltCodeTmr {inp : Inputs} (b : Block)
    (h : inp.rst = true ∨ inp.reinit = true ∨ inp.tick = false) : (cycleOutputs inp b).fltCodeTmr = 0#4 :=
  cycleOutputs_port_eq (f := Outputs.fltCodeTmr) h fun htick => requestOutputs_port_eq
    (.inr (readOutputs_port_eq fun _ _ _ _ _ => rfl)) (.inr fun _ _ => rfl) (.inr fun _ _ => rfl) (.inl htick) b

/-- Without READ_FRAME its ports are 0. -/
theorem cycleOutputs_readPorts_of_none {inp : Inputs} (b : Block)
    (h : inp.rst = true ∨ inp.reinit = true ∨ inp.rdReq = false) :
    (cycleOutputs inp b).readPorts = (false, 0#8, 0#8, 0) :=
  cycleOutputs_port_eq (f := Outputs.readPorts) h fun hrd => requestOutputs_port_eq
    (.inl hrd) (.inr fun _ _ => rfl) (.inr fun _ _ => rfl) (.inr fun _ => rfl) b

/-- Without an operation that can fault, flt_valid is 0. -/
theorem cycleOutputs_fltValid {inp : Inputs} (b : Block)
    (h : inp.rst = true ∨ inp.reinit = true ∨ inp.rxValid = false ∧ inp.txReq = false ∧ inp.tick = false) :
    (cycleOutputs inp b).fltValid = 0#3 :=
  cycleOutputs_port_eq (f := Outputs.fltValid) h fun ⟨hrx, htx, htick⟩ => requestOutputs_port_eq
    (.inr (readOutputs_port_eq fun _ _ _ _ _ => rfl)) (.inl hrx) (.inl htx) (.inl htick) b

/-! ### A cycle with one request -/

@[simp] theorem statusOutputs_fltValid (b : Block) : (statusOutputs b).fltValid = 0#3 := rfl

/-- An operation's answer, with the one result that was returned. -/
theorem answer_result {p : Block × Ret} {s t : State} {r : Ret} (h : answer p s = .next t)
    (hr : t.rets = s.rets ++ [r]) : p = (t.block, r) := by
  obtain rfl := Host.Outcome.next.inj h
  obtain rfl : p.2 = r := by simpa using hr
  rfl

theorem cycleOutputs_feedByte (x : Byte) (b : Block) :
    cycleOutputs { Inputs.quiet with rxValid := true, rxByte := x } b =
      rxOutputs (feedByteOp x b).2 (statusOutputs (feedByteOp x b).1) :=
  rfl

theorem cycleOutputs_tick (b : Block) :
    cycleOutputs { Inputs.quiet with tick := true } b =
      if tickFires b then tickOutputs (statusOutputs (tickOp b)) else statusOutputs (tickOp b) :=
  rfl

theorem cycleOutputs_readFrame (b : Block) :
    cycleOutputs { Inputs.quiet with rdReq := true } b = readOutputs b (statusOutputs b) :=
  rfl

/-- A cycle that requests ENCODE, with the payload's bytes on tx_payload. -/
theorem cycleOutputs_encode (k len : Byte) {p : List Byte} {b : Block} (hp : p.length = b.cfg.pMax.val) :
    cycleOutputs { Inputs.quiet with txReq := true, txKind := k, txLen := len, txPayload := packBytes p } b =
      if b.txb then statusOutputs b
      else txOutputs (encodeOp k len p b).2 (statusOutputs (encodeOp k len p b).1) := by
  have hport : unpackBytes b.cfg.pMax.val (packBytes p) = p := hp ▸ unpackBytes_packBytes p
  cases hb : b.txb <;>
    simp [cycleOutputs, requestOutputs, cycleBlock, afterTick, afterTx, afterRx, afterTxDone, afterConsume,
      txGranted, portPayload, Inputs.quiet, hport, hb]

/-- TICK's event is emitted exactly when `tickFires`. -/
theorem tickOp_trace_eq_iff (b : Block) : (tickOp b).trace = b.trace ↔ tickFires b = false := by
  unfold tickOp
  cases tickFires b
  · simp [apply_ite Block.trace]
  · simp

/-- Settles O59: ports that no performed operation drives are those of `statusOutputs`, and a single request is
performed on the block that the cycle began with. -/
theorem portsShowTheResultOfARequest : Obligations.PortsShowTheResultOfARequest := by
  refine ⟨?_, fun _ _ _ => packBytes_getElem?, ?_, ?_, ?_, ?_⟩
  · rintro inp b c o rfl rfl
    refine ⟨?_, fun h => ?_, fun h => ?_, cycleOutputs_fltCodeTmr b, fun h => ?_, cycleOutputs_fltValid b⟩
    · simpa [Outputs.statusPorts, statusOutputs] using cycleOutputs_statusPorts inp b
    · simpa [Outputs.rxPorts] using cycleOutputs_rxPorts b h
    · simpa [Outputs.txPorts] using cycleOutputs_txPorts b h
    · simpa [Outputs.readPorts] using cycleOutputs_readPorts_of_none b h
  · rintro s t x o inp rfl h hr
    have hop := answer_result h hr
    rw [Prod.mk.injEq, Ret.rx.injEq] at hop
    rw [cycleOutputs_feedByte, hop.1, hop.2]
    simp [rxOutputs]
  · rintro s t k len p r inp rfl hp
    rw [cycleOutputs_encode k len hp]
    refine ⟨fun hb => if_pos hb, fun hb h hr => ?_⟩
    rw [exec_encodeFrame_of_idle hb] at h
    rw [hb, answer_result h hr]
    simp [txOutputs]
  · rintro s t inp rfl h
    obtain rfl := Host.Outcome.next.inj h
    rw [cycleOutputs_tick]
    refine ⟨fun ht => ?_, fun ht => ?_⟩
    · rw [(tickOp_trace_eq_iff _).1 ht]
      rfl
    · rw [Bool.of_not_eq_false fun hf => ht ((tickOp_trace_eq_iff _).2 hf)]
      simp [tickOutputs, FaultKind.code]
  · rintro b inp rfl
    rw [cycleOutputs_readFrame, readOutputs]
    exact ⟨fun h => if_pos h, fun h => if_neg (Bool.eq_false_iff.1 h)⟩

end Sys2Proof.Machine

namespace Sys2Proof.Machine

/-! ## The transmit path and the round trip (40_encode.md R130 to R135; 30_encoding.md R90, R94) -/

/-! ### ENCODE and TX_COMPLETE -/

/-- Where a frame fits TXBUF, sending it puts the frame before the bytes that stood behind it, and the Send event
carries exactly the frame. -/
theorem emitSend_storeFrame {k len : Byte} {q : List Byte} {b : Block} (hq : q.length = len.toNat)
    (hfit : len.toNat + 5 ≤ b.txbuf.length) :
    emitSend (setBusy (storeFrame k len q b)) = { b with
      txbuf := frameOf b.cfg k len q ++ b.txbuf.drop (len.toNat + 5)
      txlen := BitVec.ofNat 9 (len.toNat + 5), txchk := chk b.cfg (k :: len :: q), txb := true
      trace := b.trace ++ [.send (frameOf b.cfg k len q)] } := by
  have hlen : (frameOf b.cfg k len q).length = len.toNat + 5 := by rw [frameOf_length, hq]
  have hbuf : bufWrite b.txbuf 0 (frameOf b.cfg k len q) = frameOf b.cfg k len q ++ b.txbuf.drop (len.toNat + 5) := by
    rw [bufWrite_zero _ _ (hlen.symm ▸ hfit), hlen]
  have hsent : (frameOf b.cfg k len q ++ b.txbuf.drop (len.toNat + 5)).take (len.toNat + 5) = frameOf b.cfg k len q :=
    List.take_left' hlen
  simp only [emitSend, emit, setBusy, storeFrame, bufRead_eq, checksumInput_eq, frameLength_toNat, hbuf, hsent]

/-- A performed ENCODE that carries its L <= P_MAX payload bytes sends their frame (40_encode.md R130). -/
theorem exec_encodeFrame_of_fits {s : State} {k len : Byte} {p : List Byte} (hidle : s.block.txb = false)
    (hl : len.toNat ≤ s.block.cfg.pMax.val) (hp : len.toNat ≤ p.length)
    (hbuf : s.block.txbuf.length = s.block.cfg.pMax.val + 5) :
    exec (.encodeFrame k len p) s = .next { s with
      block := { s.block with
        txbuf := frameOf s.block.cfg k len (p.take len.toNat) ++ s.block.txbuf.drop (len.toNat + 5)
        txlen := BitVec.ofNat 9 (len.toNat + 5), txchk := chk s.block.cfg (k :: len :: p.take len.toNat), txb := true
        trace := s.block.trace ++ [.send (frameOf s.block.cfg k len (p.take len.toNat))] }
      rets := s.rets ++ [.ok] } := by
  rw [exec_encodeFrame_of_idle hidle, encodeOp, if_neg (Nat.not_lt.2 hl), payloadOperand_eq_take len p hp,
    emitSend_storeFrame (List.length_take_of_le hp) (by omega), answer_eq]

/-- A performed ENCODE with L > P_MAX is the Error Manager action alone (40_encode.md R132). -/
theorem exec_encodeFrame_of_tooLong {s : State} {k len : Byte} (p : List Byte) (hidle : s.block.txb = false)
    (hlong : s.block.cfg.pMax.val < len.toNat) :
    exec (.encodeFrame k len p) s = .next { s with
      block := raiseFault .payloadTooLarge .tx s.block, rets := s.rets ++ [.fault .payloadTooLarge] } := by
  rw [exec_encodeFrame_of_idle hidle, encodeOp, if_pos hlong, answer_eq]

/-- Settles O9: ENCODE is held, refused for its length, or sent, by TXB and then by L against P_MAX. -/
theorem encodeFollowsItsRule : Obligations.EncodeFollowsItsRule := by
  refine ⟨fun _ _ _ => rfl, fun s k len p => ⟨fun hbusy => ?_, fun hidle hlong => ?_, ?_⟩⟩
  · exact exec_encodeFrame_of_busy hbusy k len p
  · exact exec_encodeFrame_of_tooLong p hidle hlong
  · rintro hidle hl hp hbuf c frame rfl rfl
    exact exec_encodeFrame_of_fits hidle hl hp hbuf

theorem exec_txComplete (s : State) :
    exec .txComplete s = .next { s with block := { s.block with txb := false }, rets := s.rets ++ [.ok] } := by
  rw [exec, execTxComplete, txCompleteOp_eq, answer_eq]

/-- Settles O11: TX_COMPLETE leaves TXB = 0 whether it was set or not. -/
theorem txCompleteReleasesTheTransmitter : Obligations.TxCompleteReleasesTheTransmitter :=
  ⟨rfl, exec_txComplete⟩

/-! ### The end of a hold (R131) -/

theorem transportMove_of_succ {y : System} {n : Nat} (hn : y.completes = n + 1) :
    transportMove y = { y with
      state := { y.state with block := { y.state.block with txb := false }, rets := y.state.rets ++ [.ok] }
      completes := n } := by
  simp only [transportMove, hn, perform_of_next (exec_txComplete y.state)]

/-- A Host whose next operation is an enabled ENCODE performs it. -/
theorem hostMove_encodeFrame_of_idle {y : System} {k len : Byte} {p : List Byte} {ops : List Instr} {t : State}
    (hbulk : y.bulk = none) (hops : y.hostOps = .encodeFrame k len p :: ops) (hidle : y.state.block.txb = false)
    (ht : exec (.encodeFrame k len p) y.state = .next t) : hostMove y = { y with state := t, hostOps := ops } := by
  simp [hostMove, hbulk, hops, held, hidle, perform_of_next ht]

/-- Settles O53: the Host's first turn is held, and its second finds TXB = 0. -/
theorem heldEncodeProceedsAfterCompletion : Obligations.HeldEncodeProceedsAfterCompletion := by
  intro y k len p ops n hbulk hops hbusy hn
  obtain ⟨t, ht⟩ := exec_completes (.encodeFrame k len p)
    { y.state with block := { y.state.block with txb := false }, rets := y.state.rets ++ [.ok] } (by simp)
  refine ⟨t, ht, ?_⟩
  calc runSchedule [.host, .transport, .host] y
      = hostMove (transportMove (hostMove y)) := rfl
    _ = hostMove (transportMove y) := by rw [hostMove_held hbulk hops hbusy]
    _ = _ := congrArg hostMove (transportMove_of_succ hn)
    _ = { y with state := t, hostOps := ops, completes := n } := hostMove_encodeFrame_of_idle hbulk hops rfl ht

/-! ### A frame fed to the receiver (R90, R94) -/

/-- A candidate frame leads through its fields to GetStop, where its last byte is fed. -/
theorem feed_frameBytes {k len : Byte} {q : List Byte} (c : Byte) {s : State} (hr : s.block.rxs = 0#3)
    (hk : kindOk s.block.cfg k = true) (hl : len.toNat ≤ s.block.cfg.pMax.val) (hq : q.length = len.toNat) :
    execAll ((frameBytes s.block.cfg k len q c).map .feedByte) s =
      exec (.feedByte s.block.cfg.pStop) (candidateFed k len q c s) := by
  have hsplit : frameBytes s.block.cfg k len q c =
      (s.block.cfg.pStart :: k :: len :: (q ++ [c])) ++ [s.block.cfg.pStop] := by simp [frameBytes]
  rw [hsplit, List.map_append, execAll_append (feed_candidate k len q c s hr hk hl hq)]
  rfl

/-- GetStop recomputes the checksum of the fields that were fed (41_receive.md R156). -/
theorem candidate_recomputedChecksum {k len : Byte} {q : List Byte} (c : Byte) {s : State}
    (hfit : len.toNat ≤ s.block.pbuf.length) (hq : q.length = len.toNat) :
    recomputedChecksum (candidateFed k len q c s).block = chk s.block.cfg (k :: len :: q) := by
  rw [recomputedChecksum, bufRead_eq, candidate_payload _ _ _ _ _ hfit hq]
  rfl

/-- The stop sentinel delivers a partial frame whose checksum is right (41_receive.md R156). -/
theorem feedByteOp_deliver {b : Block} (hr : b.rxs = 5#3) (hl : b.pl.toNat ≤ b.cfg.pMax.val)
    (hc : recomputedChecksum b = b.cchk) : feedByteOp b.cfg.pStop b = deliver (clearIdle b) := by
  rw [feedByteOp_getStop _ b hr hl, rxGetStopOp, clearIdle_cfg, if_pos rfl]
  exact if_pos hc

/-- The state in which a frame leaves a receiver that was in WaitStart. -/
def frameDelivered (k len : Byte) (q : List Byte) (s : State) : State :=
  let u := candidateFed k len q (chk s.block.cfg (k :: len :: q)) s
  { u with
    block := { u.block with
      dk := k, dl := len, dbuf := bufWrite s.block.dbuf 0 q, prdy := true, rxs := 0#3
      trace := s.block.trace ++ [.frameReady k len q] }
    rets := u.rets ++ [.rx .frameReady] }

theorem frameDelivered_rets (k len : Byte) (q : List Byte) (s : State) : (frameDelivered k len q s).rets =
    s.rets ++ (List.replicate (len.toNat + 4) (.rx .incomplete) ++ [.rx .frameReady]) :=
  List.append_assoc ..

/-- Feeding a frame of an accepted kind delivers it (41_receive.md R151 to R156). -/
theorem feed_frameOf {k len : Byte} {q : List Byte} {s : State} (hr : s.block.rxs = 0#3)
    (hk : kindOk s.block.cfg k = true) (hl : len.toNat ≤ s.block.cfg.pMax.val) (hq : q.length = len.toNat)
    (hm : Memory.wf s.block = true) :
    execAll ((frameOf s.block.cfg k len q).map .feedByte) s = .next (frameDelivered k len q s) := by
  have hfit : len.toNat ≤ s.block.pbuf.length := ((memory_wf_iff _).1 hm).1 ▸ hl
  have hstop : feedByteOp s.block.cfg.pStop (candidateFed k len q (chk s.block.cfg (k :: len :: q)) s).block = _ :=
    feedByteOp_deliver rfl hl (candidate_recomputedChecksum _ hfit hq)
  rw [frameOf, feed_frameBytes _ hr hk hl hq, exec, execFeedByte, checksumInput_eq, hstop]
  simp only [deliver, latchFrame, bufRead_eq, clearIdle_pbuf, clearIdle_pl, candidate_payload _ _ _ _ _ hfit hq]
  rfl

/-- READ_FRAME returns the delivered frame (42_host_ops.md R190). -/
theorem exec_readFrame_of_ready {s : State} (h : s.block.prdy = true) :
    exec .readFrame s =
      .next { s with rets := s.rets ++ [.frame s.block.dk s.block.dl (s.block.dbuf.take s.block.dl.toNat)] } := by
  rw [exec, execReadFrame, readResult, if_pos h, answer_eq, bufRead_eq]

theorem exec_readFrame_frameDelivered {k len : Byte} {q : List Byte} {s : State}
    (hfit : len.toNat ≤ s.block.dbuf.length) (hq : q.length = len.toNat) :
    exec .readFrame (frameDelivered k len q s) = .next { frameDelivered k len q s with
      rets := (frameDelivered k len q s).rets ++ [.frame k len q] } := by
  have hread : (bufWrite s.block.dbuf 0 q).take len.toNat = q := by
    rw [bufWrite_zero _ _ (hq ▸ hfit), List.take_left' hq]
  rw [exec_readFrame_of_ready rfl]
  simp only [frameDelivered, hread]

/-- Settles O28: the Send event carries `frameOf`, and feeding `frameOf` delivers its kind, length and payload. -/
theorem roundTripDeliversTheEncodedFrame : Obligations.RoundTripDeliversTheEncodedFrame := by
  intro s r k len p hidle hs hl hp hcfg hk hr hrxs
  have hq : (p.take len.toNat).length = len.toNat := List.length_take_of_le hp
  have hlr : len.toNat ≤ r.block.cfg.pMax.val := hcfg.symm ▸ hl
  obtain ⟨-, -, htxbuf⟩ := (memory_wf_iff _).1 hs
  obtain ⟨-, hdbuf, -⟩ := (memory_wf_iff _).1 hr
  refine ⟨_, frameDelivered k len (p.take len.toNat) r, frameOf s.block.cfg k len (p.take len.toNat),
    exec_encodeFrame_of_fits hidle hl hp htxbuf, rfl, ?_, ?_, frameDelivered_rets .., rfl, ?_⟩
  · rw [frameOf_length, hq]
  · rw [← hcfg]
    exact feed_frameOf hrxs hk hlr hq hr
  · exact exec_readFrame_frameDelivered (hdbuf.symm ▸ hlr) hq

end Sys2Proof.Machine

namespace Sys2Proof.Machine

/-! ## The receive path (41_receive.md R150 to R165) -/

/-! ### FEED_BYTE and the row that RXS selects (R150) -/

theorem operandBytes_selectRow (c : RxsCode) (x : Byte) : operandBytes (selectRow c x) = [x] := by
  rcases rxsCode_cases c with rfl | rfl | rfl | rfl | rfl | rfl | rfl | rfl <;> rfl

theorem exec_feedByte (x : Byte) (s : State) : exec (.feedByte x) s = answerRx (feedByteOp x s.block) s := rfl

theorem exec_selectRow (x : Byte) (s : State) :
    exec (selectRow s.block.rxs x) s = answerRx (feedByteOp x s.block) s := by
  rcases exec_row _ _ (rowCode_selectRow s.block.rxs x) s with ⟨hne, _⟩ | ⟨y, _, hy, he⟩
  · exact absurd rfl hne
  · have hxy := congrArg operandBytes hy
    rw [operandBytes_selectRow, operandBytes_selectRow] at hxy
    rw [he, List.singleton_inj.1 hxy]

/-- The command and the row of the current receive state have one meaning. -/
theorem exec_feedByte_or_row {i : Instr} {c : RxsCode} {x : Byte} {s : State} (hr : s.block.rxs = c)
    (hi : i ∈ [Instr.feedByte x, selectRow c x]) : exec i s = answerRx (feedByteOp x s.block) s := by
  subst hr
  simp only [List.mem_cons, List.not_mem_nil, or_false] at hi
  rcases hi with rfl | rfl
  · exact exec_feedByte x s
  · exact exec_selectRow x s

/-- A FEED_BYTE whose transition raises a fault leaves the state that the Error Manager action describes. -/
theorem answerRx_rxFault (code : FaultKind) (s : State) :
    answerRx (rxFault code (clearIdle s.block)) s = .next (s.afterRxFault code) := rfl

/-- Settles O14: the row's meaning is `feedByteOp`, which zeroes IDLE in every case. -/
theorem feedByteIsTheSelectedRow : Obligations.FeedByteIsTheSelectedRow := by
  refine ⟨fun _ => rfl, fun s x => ⟨(exec_selectRow x s).symm, ⟨_, rfl, feedByteOp_idle x s.block⟩, fun h => ?_⟩⟩
  rw [exec_feedByte, feedByteOp_malformed x s.block h, answerRx_rxFault]

/-- Settles O23: a row outside its receive state is the first case of `exec_row`. -/
theorem unselectedRowTakesNoStep : Obligations.UnselectedRowTakesNoStep := by
  intro s i c hi hne
  rcases exec_row i c hi s with ⟨_, he⟩ | ⟨_, hr, _⟩
  · exact he
  · exact absurd hr hne

/-! ### One receive state at a time (R151 to R157) -/

/-- Settles O15: the byte is compared with the start sentinel. -/
theorem feedByteInWaitStart : Obligations.FeedByteInWaitStart := by
  refine ⟨fun _ => ⟨rfl, rfl⟩, fun s x hr i hi => ?_⟩
  rw [exec_feedByte_or_row hr hi, feedByteOp_waitStart x s.block hr, rxWaitStartOp, clearIdle_cfg]
  refine ⟨fun hx => ?_, fun hx => ?_⟩
  · rw [if_pos hx]
    rfl
  · rw [if_neg hx, answerRx_rxFault]

/-- Settles O16: the byte is given to the kind predicate, whose two forms are `kindOk_acceptAll` and
`kindOk_acceptOnly`. -/
theorem feedByteInGetKind : Obligations.FeedByteInGetKind := by
  refine ⟨fun _ => ⟨rfl, rfl⟩, fun _ x h => kindOk_acceptAll h x, fun _ _ x h => kindOk_acceptOnly h x,
    fun s x hr i hi => ?_⟩
  rw [exec_feedByte_or_row hr hi, feedByteOp_getKind x s.block hr, rxGetKindOp, clearIdle_cfg]
  refine ⟨fun hk => ?_, fun hk => ?_⟩
  · rw [if_pos hk]
    rfl
  · rw [if_neg (Bool.eq_false_iff.1 hk), answerRx_rxFault]

/-- Settles O17: the byte is compared with P_MAX, and a length that fits with 0. -/
theorem feedByteInGetLength : Obligations.FeedByteInGetLength := by
  refine ⟨fun _ => ⟨rfl, rfl⟩, fun s x hr i hi => ?_⟩
  rw [exec_feedByte_or_row hr hi, feedByteOp_getLength x s.block hr, rxGetLengthOp, clearIdle_cfg]
  refine ⟨?_, fun h0 hfit => ?_, fun hlong => ?_⟩
  · rintro rfl
    rw [if_pos (show (0#8).toNat ≤ _ from Nat.zero_le _), if_pos rfl]
    rfl
  · rw [if_pos hfit, if_neg h0]
    rfl
  · rw [if_neg (Nat.not_le.2 hlong), answerRx_rxFault]

/-- GetPayload's step, with IDLE <- 0 and its next state decided by exact arithmetic (41_receive.md R154). -/
theorem feedByteOp_store (x : Byte) {b : Block} (hr : b.rxs = 3#3) (hl : b.pl.toNat ≤ b.cfg.pMax.val)
    (hc : b.cur.toNat < b.pl.toNat) : feedByteOp x b = ({ b with
      idle := 0, pbuf := b.pbuf.set b.cur.toNat x, cur := b.cur + 1#8
      rxs := if b.cur.toNat + 1 = b.pl.toNat then 4#3 else 3#3 }, .incomplete) := by
  rw [feedByteOp_getPayload x b hr hl hc, rxGetPayloadOp_eq x (clearIdle b) hc]
  rfl

/-- Settles O18: the next receive state is decided by CUR + 1 against PL. -/
theorem feedByteInGetPayload : Obligations.FeedByteInGetPayload := by
  refine ⟨fun _ => ⟨rfl, rfl⟩, fun s x hr hl hc i hi => ?_⟩
  rw [exec_feedByte_or_row hr hi, feedByteOp_store x hr hl hc]
  refine ⟨fun hlast => ?_, fun hmore => ?_⟩
  · rw [if_pos hlast, answerRx_eq]
  · rw [if_neg hmore.ne, answerRx_eq]

/-- Settles O19: every byte is stored as the claimed checksum. -/
theorem feedByteInGetChecksum : Obligations.FeedByteInGetChecksum := by
  refine ⟨fun _ => ⟨rfl, rfl⟩, fun s x hr hl i hi => ?_⟩
  rw [exec_feedByte_or_row hr hi, feedByteOp_getChecksum x s.block hr hl]
  rfl

/-- The stop sentinel after a wrong checksum raises ChecksumMismatch (41_receive.md R156). -/
theorem feedByteOp_checksumMismatch {b : Block} (hr : b.rxs = 5#3) (hl : b.pl.toNat ≤ b.cfg.pMax.val)
    (hc : recomputedChecksum b ≠ b.cchk) : feedByteOp b.cfg.pStop b = rxFault .checksumMismatch (clearIdle b) := by
  rw [feedByteOp_getStop _ b hr hl, rxGetStopOp, clearIdle_cfg, if_pos rfl]
  exact if_neg hc

/-- Any byte but the stop sentinel raises InvalidStop, whatever the checksum (60_exceptions.md R226). -/
theorem feedByteOp_invalidStop {x : Byte} {b : Block} (hr : b.rxs = 5#3) (hl : b.pl.toNat ≤ b.cfg.pMax.val)
    (hx : x ≠ b.cfg.pStop) : feedByteOp x b = rxFault .invalidStop (clearIdle b) := by
  rw [feedByteOp_getStop x b hr hl, rxGetStopOp, clearIdle_cfg, if_neg hx]

/-- Settles O20: a wrong stop byte, a delivery, or a wrong checksum; the payload that is delivered fits DBUF. -/
theorem feedByteInGetStop : Obligations.FeedByteInGetStop := by
  refine ⟨fun _ => ⟨rfl, rfl⟩, fun s x hr hl hm i hi => ?_⟩
  obtain ⟨hpbuf, hdbuf, -⟩ := (memory_wf_iff _).1 hm
  have hlen : (s.block.pbuf.take s.block.pl.toNat).length = s.block.pl.toNat := List.length_take_of_le (by omega)
  have hwrite := bufWrite_zero s.block.dbuf (s.block.pbuf.take s.block.pl.toNat) (by omega)
  rw [hlen] at hwrite
  rw [exec_feedByte_or_row hr hi]
  refine ⟨fun hx => ?_, ?_⟩
  · rw [feedByteOp_invalidStop hr hl hx, answerRx_rxFault]
  rintro _ rfl
  refine ⟨?_, ?_⟩ <;> rintro rfl hc
  · rw [feedByteOp_deliver hr hl hc, ← hwrite]
    rfl
  · rw [feedByteOp_checksumMismatch hr hl hc, answerRx_rxFault]

/-- Settles O21: where WF fails no transition is taken. -/
theorem feedByteInMalformedState : Obligations.FeedByteInMalformedState := by
  refine ⟨fun _ => ⟨rfl, rfl, rfl, rfl⟩, fun s x h i hi => ?_⟩
  rw [exec_feedByte_or_row rfl hi, feedByteOp_malformed x s.block h, answerRx_rxFault]

/-! ### The outcome of a FEED_BYTE (R158) -/

/-- Settles O24: of the cases of `feedByteOp_cases` the first is a fault, the last the delivery, and the others are
Incomplete. -/
theorem feedByteOutcomeContract : Obligations.FeedByteOutcomeContract := by
  intro s x
  refine ⟨_, (feedByteOp x s.block).2, rfl, rfl, rfl, ?_⟩
  rcases feedByteOp_cases x s.block with ⟨code, _, _, e⟩ | ⟨_, _, e⟩ | ⟨_, _, e⟩ | ⟨_, _, e⟩ | ⟨_, _, _, e⟩ |
    ⟨_, _, _, e⟩ | ⟨_, _, e⟩ | ⟨hr, _, hx, hc, e⟩ <;> rw [e]
  case inl =>
    refine ⟨nofun, nofun, ?_⟩
    rintro _ ⟨⟩
    exact ⟨rfl, rfl, rfl⟩
  case inr.inr.inr.inr.inr.inr.inr => exact ⟨nofun, fun _ => ⟨hr, hx, hc, rfl⟩, nofun⟩
  all_goals exact ⟨fun _ => rfl, nofun, nofun⟩

/-! ### FEED_BUF (R161) -/

theorem exec_feedBuf (bs : List Byte) (s : State) : exec (.feedBuf bs) s = .next { s with
    block := (feedBufOp bs 0 s.block).1
    rets := s.rets ++ [.bulk (feedBufOp bs 0 s.block).2.1 (feedBufOp bs 0 s.block).2.2] } := rfl

/-- The loop returns at the first FrameReady. -/
theorem feedBufOp_cons_of_frameReady {x : Byte} {b : Block} (h : (feedByteOp x b).2 = .frameReady) (xs : List Byte)
    (i : Nat) : feedBufOp (x :: xs) i b = ((feedByteOp x b).1, .frameReady, i + 1) := by
  rw [feedBufOp_cons, if_pos h]

/-- The loop goes on after any other outcome, a fault or not. -/
theorem feedBufOp_cons_of_ne {x : Byte} {b : Block} (h : (feedByteOp x b).2 ≠ .frameReady) (xs : List Byte) (i : Nat) :
    feedBufOp (x :: xs) i b = feedBufOp xs (i + 1) (feedByteOp x b).1 := by
  rw [feedBufOp_cons, if_neg h]

/-- Settles O26: the loop's two continuations after its first byte; the count of the rest is one less. -/
theorem feedBufIsTheLoop : Obligations.FeedBufIsTheLoop := by
  refine ⟨fun _ => rfl, fun _ => rfl, fun s x xs b o hfed => ?_⟩
  obtain ⟨rfl, rfl⟩ : (feedByteOp x s.block).1 = b ∧ (feedByteOp x s.block).2 = o := by
    simpa [exec_feedByte] using hfed
  refine ⟨fun ho => ?_, fun ho c o' n hrest => ?_⟩
  · rw [exec_feedBuf, feedBufOp_cons_of_frameReady ho]
  · obtain ⟨rfl, rfl, rfl⟩ : (feedBufOp xs 0 (feedByteOp x s.block).1).1 = c ∧
        (feedBufOp xs 0 (feedByteOp x s.block).1).2.1 = o' ∧ (feedBufOp xs 0 (feedByteOp x s.block).1).2.2 = n := by
      simpa [exec_feedBuf] using hrest
    rw [exec_feedBuf, feedBufOp_cons_of_ne ho, feedBufOp_shift, Nat.zero_add, Nat.add_comm 1]

/-- The loop, entered with `i` bytes consumed, returns at a byte that completes a frame, or Incomplete after all. -/
theorem feedBufOp_outcome_cases (bs : List Byte) (i : Nat) (b : Block) :
    ((feedBufOp bs i b).2.1 = .frameReady ∧ i < (feedBufOp bs i b).2.2 ∧
      (feedBufOp bs i b).2.2 ≤ i + bs.length ∧ (feedBufOp bs i b).1.prdy = true) ∨
    ((feedBufOp bs i b).2.1 = .incomplete ∧ (feedBufOp bs i b).2.2 = i + bs.length) := by
  induction bs generalizing i b with
  | nil => exact .inr ⟨rfl, rfl⟩
  | cons x xs ih =>
    rw [List.length_cons]
    by_cases ho : (feedByteOp x b).2 = .frameReady
    · rw [feedBufOp_cons_of_frameReady ho]
      exact .inl ⟨rfl, Nat.lt_succ_self i, Nat.add_le_add_left (Nat.succ_pos _) i, feedByteOp_prdy_of_frameReady ho⟩
    · rw [feedBufOp_cons_of_ne ho]
      rcases ih (i + 1) (feedByteOp x b).1 with ⟨hr, hlt, hle, hp⟩ | ⟨hr, hn⟩
      · exact .inl ⟨hr, by omega, by omega, hp⟩
      · exact .inr ⟨hr, by omega⟩

/-- Settles O27: how the loop ends, and what its bytes never write. -/
theorem feedBufCompletes : Obligations.FeedBufCompletes := by
  intro s bs
  refine ⟨_, _, _, exec_feedBuf bs s, ?_, exec_cfg (exec_feedBuf bs s), feedBufOp_sameTransmit bs 0 s.block⟩
  simpa only [Nat.zero_add] using feedBufOp_outcome_cases bs 0 s.block

/-! ### FEED_BUF byte by byte (R161; 20_memory.md R77) -/

/-- The system after a Host's FEED_BUF that answers `r` has returned. -/
def bulkReturned (r : Block × RxOutcome × Nat) (y : System) : System :=
  { y with state := finishBulk r.2.1 r.2.2 (y.state.withBlock r.1), bulk := none }

/-- A turn that neither completes a frame nor feeds the last byte leaves the rest to the Host's next turns. -/
theorem bulkMove_cons_of_ne {x : Byte} {xs : List Byte} {y : System} (ho : (feedByteOp x y.state.block).2 ≠ .frameReady)
    (hxs : xs ≠ []) (i : Nat) : bulkMove ⟨x :: xs, i⟩ y =
      { y with state := y.state.withBlock (feedByteOp x y.state.block).1, bulk := some ⟨xs, i + 1⟩ } := by
  simp only [bulkMove, if_neg ho, if_neg hxs]
  rfl

/-- A FEED_BUF whose turn it is returns after at most one further turn for each byte behind the first. -/
theorem bulkMove_returns (bs : List Byte) (i : Nat) (y : System) : ∃ n < max 1 bs.length,
    runSchedule (List.replicate n .host) (bulkMove ⟨bs, i⟩ y) = bulkReturned (feedBufOp bs i y.state.block) y := by
  induction bs generalizing i y with
  | nil => exact ⟨0, by simp, rfl⟩
  | cons x xs ih =>
    by_cases ho : (feedByteOp x y.state.block).2 = .frameReady
    · refine ⟨0, by simp, ?_⟩
      rw [feedBufOp_cons_of_frameReady ho]
      simp only [bulkMove, if_pos ho]
      rfl
    rw [feedBufOp_cons_of_ne ho]
    by_cases hxs : xs = []
    · refine ⟨0, by simp, ?_⟩
      simp only [bulkMove, if_neg ho, if_pos hxs]
      rw [hxs]
      rfl
    · obtain ⟨n, hn, hrun⟩ := ih (i + 1)
        { y with state := y.state.withBlock (feedByteOp x y.state.block).1, bulk := some ⟨xs, i + 1⟩ }
      have hpos : 0 < xs.length := List.length_pos_of_ne_nil hxs
      refine ⟨n + 1, by simp; omega, ?_⟩
      rw [bulkMove_cons_of_ne ho hxs]
      exact hrun

/-- Settles O54: the Host's first turn takes up the FEED_BUF, and `bulkMove_returns` counts the others. -/
theorem feedBufIsItsFeedBytes : Obligations.FeedBufIsItsFeedBytes := by
  intro y bytes ops hbulk hops
  obtain ⟨n, hn, hrun⟩ := bulkMove_returns bytes 0 { y with hostOps := ops }
  have hfirst : hostMove y = bulkMove ⟨bytes, 0⟩ { y with hostOps := ops } := by
    simp only [hostMove, hbulk, hops]
  refine ⟨n + 1, _, n.succ_pos, hn, exec_feedBuf bytes y.state, ?_⟩
  calc runSchedule (List.replicate (n + 1) .host) y
      = runSchedule (List.replicate n .host) (hostMove y) := rfl
    _ = bulkReturned (feedBufOp bytes 0 y.state.block) { y with hostOps := ops } := by rw [hfirst, hrun]
    _ = _ := by simp only [bulkReturned, hbulk]; rfl

/-! ### Garbage before a frame (R162) -/

/-- The state after `n > 0` bytes that are no start sentinel. -/
def afterInvalidStarts (n : Nat) (s : State) : State :=
  { s with
    block := { s.block with
      lerr := 1#4, idle := 0, trace := s.block.trace ++ List.replicate n (.fault .invalidStart .rx) }
    rets := s.rets ++ List.replicate n (.rx (.fault .invalidStart)) }

/-- One more such byte before the others. -/
theorem afterInvalidStarts_succ {s : State} (hr : s.block.rxs = 0#3) (n : Nat) :
    afterInvalidStarts n (s.afterRxFault .invalidStart) = afterInvalidStarts (n + 1) s := by
  simp [afterInvalidStarts, State.afterRxFault, List.replicate_succ, hr]

/-- Bytes that are no start sentinel are discarded one by one (41_receive.md R162). -/
theorem feed_garbage {garbage : List Byte} {s : State} (hne : garbage ≠ []) (hr : s.block.rxs = 0#3)
    (hg : ∀ x ∈ garbage, x ≠ s.block.cfg.pStart) :
    execAll (garbage.map .feedByte) s = .next (afterInvalidStarts garbage.length s) := by
  induction garbage generalizing s with
  | nil => exact absurd rfl hne
  | cons x xs ih =>
    obtain ⟨hx, hxs⟩ := List.forall_mem_cons.1 hg
    have hfirst : exec (.feedByte x) s = .next (s.afterRxFault .invalidStart) :=
      (feedByteInWaitStart.2 s x hr _ List.mem_cons_self).2 hx
    rw [List.map_cons, execAll_cons hfirst, List.length_cons, ← afterInvalidStarts_succ hr]
    cases xs with
    | nil => simp [afterInvalidStarts, State.afterRxFault, FaultKind.code]
    | cons y ys => exact ih (List.cons_ne_nil y ys) rfl hxs

/-- Settles O29: after the garbage the receiver is in WaitStart again, with its arrays as they were, and `feed_frameOf`
delivers the frame from there. -/
theorem garbageIsDiscardedBeforeAFrame : Obligations.GarbageIsDiscardedBeforeAFrame := by
  refine fun r garbage hr hg => ⟨fun hne => feed_garbage hne hr hg, fun k len p hk hl hp hm => ?_⟩
  obtain ⟨s, hs, hrs, hcfg, hms, hrets⟩ : ∃ s, execAll (garbage.map .feedByte) r = .next s ∧ s.block.rxs = 0#3 ∧
      s.block.cfg = r.block.cfg ∧ Memory.wf s.block = true ∧
      s.rets = r.rets ++ List.replicate garbage.length (.rx (.fault .invalidStart)) := by
    cases garbage with
    | nil => exact ⟨r, rfl, hr, rfl, hm, (List.append_nil _).symm⟩
    | cons x xs => exact ⟨_, feed_garbage (List.cons_ne_nil x xs) hr hg, hr, rfl, hm, rfl⟩
  rw [← hcfg] at hk hl
  have hfit : len.toNat ≤ s.block.dbuf.length := ((memory_wf_iff _).1 hms).2.1 ▸ hl
  refine ⟨frameDelivered k len p s, ?_, ?_, exec_readFrame_frameDelivered hfit hp⟩
  · rw [List.map_append, execAll_append hs, ← hcfg, feed_frameOf hrs hk hl hp hms]
  · rw [frameDelivered_rets, hrets, List.append_assoc]

/-! ### A flipped payload bit (R163) -/

/-- XOR carries a change of one byte over to the checksum. -/
theorem xorBytes_set {p : List Byte} {j : Nat} {old : Byte} (h : p[j]? = some old) (d : Byte) :
    xorBytes (p.set j (old ^^^ d)) = xorBytes p ^^^ d := by
  induction p generalizing j with
  | nil => simp at h
  | cons x xs ih =>
    cases j with
    | zero =>
      obtain rfl : x = old := by simpa using h
      simp only [List.set_cons_zero, xorBytes]
      rw [BitVec.xor_assoc, BitVec.xor_comm d, BitVec.xor_assoc]
    | succ j =>
      simp only [List.set_cons_succ, xorBytes]
      rw [ih (by simpa using h), BitVec.xor_assoc]

theorem twoPow_ne_zero {bit : Nat} (h : bit < 8) : BitVec.twoPow 8 bit ≠ 0#8 := by
  intro h0
  have := congrArg BitVec.toNat h0
  rw [BitVec.toNat_twoPow_of_lt h] at this
  exact absurd this (Nat.two_pow_pos bit).ne'

/-- With P_CHK_XOR a flipped bit is always seen. -/
theorem chk_ne_of_flip {c : Config} (hc : c.pChk = .xorAll) (k len : Byte) {p : List Byte} {j bit : Nat} {old : Byte}
    (h : p[j]? = some old) (hbit : bit < 8) :
    chk c (k :: len :: p.set j (old ^^^ BitVec.twoPow 8 bit)) ≠ chk c (k :: len :: p) := by
  have hxor : ∀ bytes, chk c bytes = xorBytes bytes := fun bytes => by simp only [chk, hc]
  rw [hxor, hxor]
  simp only [xorBytes, xorBytes_set h]
  intro heq
  rw [BitVec.xor_right_inj, BitVec.xor_right_inj] at heq
  exact twoPow_ne_zero hbit ((BitVec.xor_right_inj (xorBytes p)).1 (heq.trans BitVec.xor_zero.symm))

/-- Settles O30: GetStop compares the checksum of what was fed, that of `q`, with the claimed one, that of `p`. -/
theorem flippedPayloadBitIsSeenByTheChecksum : Obligations.FlippedPayloadBitIsSeenByTheChecksum := by
  rintro r k len p q j bit old hr hm hk hl hp hj hbit rfl
  have hq : (p.set j (old ^^^ BitVec.twoPow 8 bit)).length = len.toNat := List.length_set.trans hp
  have hxor : r.block.cfg.pChk = .xorAll → _ := fun hc => chk_ne_of_flip hc k len hj hbit
  obtain ⟨hpbuf, hdbuf, -⟩ := (memory_wf_iff _).1 hm
  generalize p.set j (old ^^^ BitVec.twoPow 8 bit) = q at hq hxor ⊢
  by_cases hc : chk r.block.cfg (k :: len :: q) = chk r.block.cfg (k :: len :: p)
  · refine ⟨frameDelivered k len q r, .frameReady, ?_, frameDelivered_rets k len q r, fun hne => absurd hc hne,
      fun _ => ⟨rfl, exec_readFrame_frameDelivered (hdbuf.symm ▸ hl) hq⟩, hxor⟩
    rw [← hc]
    exact feed_frameOf hr hk hl hq hm
  · have hstop := feedByteOp_checksumMismatch (b := (candidateFed k len q (chk r.block.cfg (k :: len :: p)) r).block)
      rfl hl (by rw [candidate_recomputedChecksum _ (hpbuf.symm ▸ hl) hq]; exact hc)
    refine ⟨(candidateFed k len q (chk r.block.cfg (k :: len :: p)) r).afterRxFault .checksumMismatch,
      .fault .checksumMismatch, ?_, List.append_assoc .., fun _ => ⟨rfl, rfl, rfl, rfl, rfl⟩,
      fun heq => absurd heq hc, hxor⟩
    rw [feed_frameBytes _ hr hk hl hq, exec_feedByte, ← answerRx_rxFault, ← hstop]
    rfl

/-! ### A stalled frame (R165) -/

/-- The receive state and the partial frame are the same in both blocks. -/
def SamePartial (a b : Block) : Prop :=
  b.rxs = a.rxs ∧ b.cur = a.cur ∧ b.pk = a.pk ∧ b.pl = a.pl ∧ b.pbuf = a.pbuf ∧ b.cchk = a.cchk

theorem SamePartial.refl (b : Block) : SamePartial b b :=
  ⟨rfl, rfl, rfl, rfl, rfl, rfl⟩

theorem SamePartial.trans {a b c : Block} (hab : SamePartial a b) (hbc : SamePartial b c) : SamePartial a c := by
  obtain ⟨h1, h2, h3, h4, h5, h6⟩ := hab
  obtain ⟨g1, g2, g3, g4, g5, g6⟩ := hbc
  exact ⟨g1.trans h1, g2.trans h2, g3.trans h3, g4.trans h4, g5.trans h5, g6.trans h6⟩

theorem tickOp_of_timeout_off {b : Block} (h : b.cfg.pTimeout = 0) : tickOp b = b := by
  rcases tickOp_cases b with ⟨_, e⟩ | ⟨hne, _⟩ | ⟨hne, _⟩
  · exact e
  all_goals exact absurd h hne

/-- An operation that feeds no byte, does not reinitialize and cannot raise a fault with P_TIMEOUT = 0. -/
def FeedsNothing (c : Config) (i : Instr) : Prop :=
  i = .nop ∨ i = .txComplete ∨ i = .readFrame ∨ i = .consume ∨ i = .tick ∨
    ∃ k len p, i = .encodeFrame k len p ∧ len.toNat ≤ c.pMax.val

theorem exec_samePartial {i : Instr} {s t : State} (hoff : s.block.cfg.pTimeout = 0) (hi : FeedsNothing s.block.cfg i)
    (h : exec i s = .next t) : SamePartial s.block t.block := by
  rcases hi with rfl | rfl | rfl | rfl | rfl | ⟨k, len, p, rfl, hl⟩
  · cases h
    exact .refl _
  · rw [exec_txComplete] at h
    cases h
    exact .refl _
  · cases h
    exact .refl _
  · obtain rfl := Host.Outcome.next.inj h
    exact (consumeOp_fst s.block).symm ▸ .refl _
  · obtain rfl := Host.Outcome.next.inj h
    exact (tickOp_of_timeout_off hoff).symm ▸ .refl _
  · cases hb : s.block.txb
    · rw [exec_encodeFrame_of_idle hb, encodeOp, if_neg (Nat.not_lt.2 hl)] at h
      cases h
      exact .refl _
    · rw [exec_encodeFrame_of_busy hb] at h
      cases h
      exact .refl _

/-- A run that answers a next state performs its first operation and then the others. -/
theorem exists_of_execAll_cons {i : Instr} {is : List Instr} {s t : State} (h : execAll (i :: is) s = .next t) :
    ∃ u, exec i s = .next u ∧ execAll is u = .next t := by
  rcases he : exec i s with u | r | r
  · exact ⟨u, rfl, execAll_cons he is ▸ h⟩
  · exact nomatch r
  · simp [execAll, he] at h

/-- Settles O31, by induction on the operations. -/
theorem stalledFrameIsHeld : Obligations.StalledFrameIsHeld := by
  intro is
  induction is with
  | nil =>
    intro s t _ h _
    cases h
    exact SamePartial.refl _
  | cons i is ih =>
    intro s t hoff h his
    obtain ⟨u, hu, hrest⟩ := exists_of_execAll_cons h
    obtain ⟨hi, his⟩ := List.forall_mem_cons.1 his
    have hcfg := exec_cfg hu
    exact (exec_samePartial hoff hi hu).trans (ih u t (hcfg ▸ hoff) hrest (hcfg ▸ his))

end Sys2Proof.Machine

namespace Sys2Proof.Machine

/-! ## The host's operations and the timer (42_host_ops.md R190 to R194) -/

/-! ### READ_FRAME, CONSUME, REINIT and NOP -/

theorem exec_readFrame_of_notReady {s : State} (h : s.block.prdy = false) :
    exec .readFrame s = .next { s with rets := s.rets ++ [.notReady] } := by
  rw [exec, execReadFrame, readResult, if_neg (Bool.eq_false_iff.1 h), answer_eq]

/-- Settles O32: the result is chosen by PRDY, and the block is answered as it was. -/
theorem readFrameReturnsTheDeliveredFrame : Obligations.ReadFrameReturnsTheDeliveredFrame :=
  ⟨rfl, fun _ => ⟨exec_readFrame_of_ready, exec_readFrame_of_notReady⟩⟩

theorem consumeOp_of_ready {b : Block} (h : b.prdy = true) : consumeOp b = ({ b with prdy := false }, .ok) :=
  if_pos h

theorem consumeOp_of_notReady {b : Block} (h : b.prdy = false) : consumeOp b = (b, .notReady) :=
  if_neg (Bool.eq_false_iff.1 h)

/-- Settles O33: the two cases of `consumeOp`. -/
theorem consumeReleasesTheDeliveredFrame : Obligations.ConsumeReleasesTheDeliveredFrame := by
  refine ⟨rfl, fun s => ⟨fun h => ?_, fun h => ?_⟩⟩
  · rw [exec, execConsume, consumeOp_of_ready h, answer_eq]
  · rw [exec, execConsume, consumeOp_of_notReady h, answer_eq]

/-- Settles O34: the rule's writes are those of `reinitOp`, and Ok is returned. -/
theorem reinitWritesEveryRegister : Obligations.ReinitWritesEveryRegister :=
  ⟨rfl, fun s => answer_eq (reinitOp s.block, .ok) s⟩

/-- A cycle with no request: every turn passes. -/
theorem cycleBlock_quiet (b : Block) : cycleBlock Inputs.quiet b = b :=
  cycleBlock_of_requests rfl rfl b

/-- Settles O36: NOP answers the block it finds, and in a quiet cycle no turn is taken. -/
theorem nopChangesNothing : Obligations.NopChangesNothing :=
  ⟨rfl, cycleBlock_quiet, fun s => answer_eq (s.block, .ok) s⟩

/-! ### TICK (R193, 60_exceptions.md R220) -/

theorem exec_tick (s : State) :
    exec .tick s = .next { s with block := tickOp s.block, rets := s.rets ++ [.ok] } :=
  answer_eq (tickOp s.block, .ok) s

theorem tickOp_of_waitStart {b : Block} (h : b.rxs = 0#3) : tickOp b = b := by
  rcases tickOp_cases b with ⟨_, e⟩ | ⟨_, hne, _⟩ | ⟨_, hne, _⟩
  · exact e
  all_goals exact absurd h hne

theorem tickOp_of_below {b : Block} (hon : b.cfg.pTimeout ≠ 0) (hbusy : b.rxs ≠ 0#3)
    (hlt : b.idle + 1 < b.cfg.pTimeout) : tickOp b = { b with idle := b.idle + 1 } := by
  rcases tickOp_cases b with ⟨hoff | hwait, _⟩ | ⟨_, _, _, e⟩ | ⟨_, _, hle, _⟩
  · exact absurd hoff hon
  · exact absurd hwait hbusy
  · exact e
  · exact absurd hlt (Nat.not_lt.2 hle)

theorem tickOp_of_reached {b : Block} (hon : b.cfg.pTimeout ≠ 0) (hbusy : b.rxs ≠ 0#3)
    (hle : b.cfg.pTimeout ≤ b.idle + 1) : tickOp b = raiseFault .timeout .tmr b := by
  rcases tickOp_cases b with ⟨hoff | hwait, _⟩ | ⟨_, _, hlt, _⟩ | ⟨_, _, _, e⟩
  · exact absurd hoff hon
  · exact absurd hwait hbusy
  · exact absurd hlt (Nat.not_lt.2 hle)
  · exact e

/-- Settles O35: TICK is off, or counts below P_TIMEOUT, or takes the Error Manager action for Timeout. -/
theorem tickCountsAndTimesOut : Obligations.TickCountsAndTimesOut := by
  refine ⟨rfl, fun s => ⟨fun hoff => ?_, fun hwait => ?_, fun hon hbusy hlt => ?_, fun hon hbusy hle => ?_⟩⟩
  · rw [exec_tick, tickOp_of_timeout_off hoff]
  · rw [exec_tick, tickOp_of_waitStart hwait]
  · rw [exec_tick, tickOp_of_below hon hbusy hlt]
  · rw [exec_tick, tickOp_of_reached hon hbusy hle]
    rfl

end Sys2Proof.Machine

namespace Sys2Proof.Machine

/-! ## Faults (60_exceptions.md R221, R222, R225, R226) -/

/-- Settles O40: `raiseFault` writes these four fields, and the code of WaitStart is 0. -/
theorem errorManagerAction : Obligations.ErrorManagerAction :=
  fun _ _ _ => rfl

/-- The Error Manager action, taken once, is the whole difference between the two blocks. -/
def RaisesOneFault (b c : Block) : Prop :=
  ∃ code src, c = raiseFault code src b

/-- No Fault event is emitted. -/
def EmitsNoFault (b c : Block) : Prop :=
  ∀ code src, Event.fault code src ∉ c.trace.drop b.trace.length

theorem EmitsNoFault.of_trace_eq {b c : Block} (h : c.trace = b.trace) : EmitsNoFault b c := by
  intro code src
  rw [h, List.drop_length]
  exact List.not_mem_nil

theorem EmitsNoFault.of_trace_append {b c : Block} {e : Event} (h : c.trace = b.trace ++ [e])
    (he : ∀ code src, Event.fault code src ≠ e) : EmitsNoFault b c := by
  intro code src
  rw [h, List.drop_left, List.mem_singleton]
  exact he code src

/-- One fault and nothing else, or no fault and LERR kept: what every operation but FEED_BUF and REINIT does. -/
def OneFaultOrNone (b c : Block) : Prop :=
  RaisesOneFault b c ∨ EmitsNoFault b c ∧ c.lerr = b.lerr

theorem OneFaultOrNone.of_silent {b c : Block} (htrace : c.trace = b.trace) (hlerr : c.lerr = b.lerr) :
    OneFaultOrNone b c :=
  .inr ⟨.of_trace_eq htrace, hlerr⟩

/-- In a faulting FEED_BYTE the zeroing of IDLE is part of the action; the other transitions emit nothing, or
FrameReady. -/
theorem feedByteOp_oneFaultOrNone (x : Byte) (b : Block) : OneFaultOrNone b (feedByteOp x b).1 := by
  rcases feedByteOp_cases x b with ⟨code, _, _, e⟩ | ⟨_, _, e⟩ | ⟨_, _, e⟩ | ⟨_, _, e⟩ | ⟨_, _, _, e⟩ |
    ⟨_, _, _, e⟩ | ⟨_, _, e⟩ | ⟨_, _, _, _, e⟩ <;> rw [e]
  case inl => exact .inl ⟨code, .rx, rfl⟩
  case inr.inr.inr.inr.inr.inr.inr => exact .inr ⟨.of_trace_append rfl nofun, rfl⟩
  all_goals exact .of_silent rfl rfl

theorem encodeOp_oneFaultOrNone (k len : Byte) (p : List Byte) (b : Block) :
    OneFaultOrNone b (encodeOp k len p b).1 := by
  rcases encodeOp_cases k len p b with ⟨_, e⟩ | ⟨_, e⟩ <;> rw [e]
  · exact .inl ⟨.payloadTooLarge, .tx, rfl⟩
  · exact .inr ⟨.of_trace_append rfl nofun, rfl⟩

theorem tickOp_oneFaultOrNone (b : Block) : OneFaultOrNone b (tickOp b) := by
  rcases tickOp_cases b with ⟨_, e⟩ | ⟨_, _, _, e⟩ | ⟨_, _, _, e⟩ <;> rw [e]
  · exact .of_silent rfl rfl
  · exact .of_silent rfl rfl
  · exact .inl ⟨.timeout, .tmr, rfl⟩

/-- FEED_BUF may raise a fault per byte; REINIT, which raises none, clears LERR. -/
theorem exec_oneFaultOrNone {i : Instr} {s t : State} (h : exec i s = .next t) (hbuf : ∀ bs, i ≠ .feedBuf bs)
    (hreinit : i ≠ .reinit) : OneFaultOrNone s.block t.block := by
  rcases exec_block_cases h with e | ⟨_, x, e⟩ | ⟨bs, hi, _⟩ | ⟨k, len, p, _, _, e⟩ | ⟨_, e⟩ | ⟨_, e⟩ | ⟨hi, _⟩ |
    ⟨_, e⟩
  · exact .of_silent (by rw [e]) (by rw [e])
  · exact e ▸ feedByteOp_oneFaultOrNone x s.block
  · exact absurd hi (hbuf bs)
  · exact e ▸ encodeOp_oneFaultOrNone k len p s.block
  · exact .of_silent (by rw [e]) (by rw [e])
  · exact .of_silent (by rw [e]) (by rw [e])
  · exact absurd hi hreinit
  · exact e ▸ tickOp_oneFaultOrNone s.block

theorem exec_reinit_block {s t : State} (h : exec .reinit s = .next t) : t.block = reinitOp s.block := by
  rw [exec, execReinit, answer_eq, Host.Outcome.next.injEq] at h
  rw [← h]

/-- Settles O41: REINIT clears LERR and emits nothing; every other instruction raises one fault or none. -/
theorem atMostOneFaultPerOperation : Obligations.AtMostOneFaultPerOperation := by
  intro i s t h hbuf
  by_cases hi : i = .reinit
  · subst hi
    have e := exec_reinit_block h
    exact .inr ⟨EmitsNoFault.of_trace_eq (by rw [e, reinitOp_trace]), .inr ⟨rfl, by rw [e, reinitOp_lerr]⟩⟩
  · rcases exec_oneFaultOrNone h hbuf hi with ⟨code, src, e⟩ | ⟨hnone, hlerr⟩
    · exact .inl ⟨code, src, e.trans (errorManagerAction code src s.block)⟩
    · exact .inr ⟨hnone, .inl hlerr⟩

end Sys2Proof.Machine

namespace Sys2Proof.Machine

/-! ## Reset (70_reset_and_hazards.md R250) -/

theorem cycleBlock_of_rst {inp : Inputs} (hrst : inp.rst = true) (b : Block) :
    cycleBlock inp b = Block.construct b.cfg := by
  rw [cycleBlock, if_pos hrst]

/-- Whatever else is requested, no port of an operation or an event is driven. -/
theorem cycleOutputs_of_rst {inp : Inputs} (hrst : inp.rst = true) (b : Block) :
    cycleOutputs inp b = statusOutputs (Block.construct b.cfg) :=
  calc cycleOutputs inp b
      = statusOutputs (cycleBlock inp b) := cycleOutputs_port_eq (f := id) (P := False) (.inl hrst) nofun
    _ = statusOutputs (Block.construct b.cfg) := by rw [cycleBlock_of_rst hrst]

/-- Settles O58: rst = 1 takes precedence over every request, in the block and in the ports. -/
theorem resetCyclePerformsNothing : Obligations.ResetCyclePerformsNothing :=
  fun _ b hrst => ⟨cycleBlock_of_rst hrst b, cycleOutputs_of_rst hrst b⟩

end Sys2Proof.Machine
